-- ==== Sys2Proof/Word.lean ====
section
/-! DEFINITION. The two widths of the hardware (spec/00_scope.md R5: XLEN = 8, ALEN = 16; R7: Byte, Word). -/

namespace Sys2Proof

/-- `Byte` of R7: a register A, X, Y, SP, an operand byte, a memory cell. -/
abbrev Byte := BitVec 8

/-- `Word` of R7: the program counter, an assembled 16-bit value. -/
abbrev Word := BitVec 16

end Sys2Proof
end

