-- ==== Sys2Proof/Syntax.lean ====
section
/-! DEFINITION. The instructions, the addressing modes and the shape of an opcode-table entry
(spec/00_scope.md R2; spec/30_encoding.md R80, R85, R86; spec/40_addressing_modes.md R100). -/

namespace Sys2Proof

/-- The four instructions in scope (R2). -/
inductive Op where
  /-- add-with-carry, R150 -/
  | adc
  /-- logical AND, R170 -/
  | and
  /-- load-accumulator, R190 -/
  | lda
  /-- shift-left (arithmetic), R210 -/
  | asl
deriving DecidableEq, Repr

/-- The 13 addressing modes, in D00's order of enumeration (R100; no numeric identifiers, D20). -/
inductive Mode where
  /-- Accumulator, R102 -/
  | acc
  /-- Immediate, R103 -/
  | imm
  /-- Absolute, R107 -/
  | abs
  /-- Zero-Page, R104 -/
  | zp
  /-- Zero-Page,X, R105 -/
  | zpx
  /-- Zero-Page,Y, R106 -/
  | zpy
  /-- Absolute,X, R108 -/
  | abx
  /-- Absolute,Y, R109 -/
  | aby
  /-- Implied, R114 -/
  | imp
  /-- Relative, R110 -/
  | rel
  /-- Indirect,X, R111 -/
  | izx
  /-- Indirect,Y, R112 -/
  | izy
  /-- Absolute-Indirect, R113 -/
  | ind
deriving DecidableEq, Repr

/-- How many operand bytes a mode reads (R100's column, R101). -/
def Mode.operandCount : Mode → Nat
  | .acc => 0
  | .imm => 1
  | .abs => 2
  | .zp => 1
  | .zpx => 1
  | .zpy => 1
  | .abx => 2
  | .aby => 2
  | .imp => 0
  | .rel => 1
  | .izx => 1
  | .izy => 1
  | .ind => 2

/-- One entry of the opcode table: "(instruction identifier, addressing mode, instruction byte-length, base
cycle count)" (R85). -/
structure Entry where
  op : Op
  mode : Mode
  length : Nat
  cycles : Nat
deriving DecidableEq, Repr

/-- One constructor per row of spec/opcode_table.json, with the row's operand bytes `o1` (at PC+1) and `o2`
(at PC+2) as they stand in memory (R80). -/
inductive Instr where
  /-- `ADC #$nn`, opcode 0x69, R151. -/
  | adcImm (o1 : Byte)
  /-- `ADC $nn`, opcode 0x65, R152. -/
  | adcZp (o1 : Byte)
  /-- `ADC $nn,X`, opcode 0x75, R153. -/
  | adcZpx (o1 : Byte)
  /-- `ADC $nnnn`, opcode 0x6D, R154. -/
  | adcAbs (o1 o2 : Byte)
  /-- `ADC $nnnn,X`, opcode 0x7D, R155. -/
  | adcAbx (o1 o2 : Byte)
  /-- `ADC $nnnn,Y`, opcode 0x79, R156. -/
  | adcAby (o1 o2 : Byte)
  /-- `ADC ($nn,X)`, opcode 0x61, R157. -/
  | adcIzx (o1 : Byte)
  /-- `ADC ($nn),Y`, opcode 0x71, R158. -/
  | adcIzy (o1 : Byte)
  /-- `AND #$nn`, opcode 0x29, R171. -/
  | andImm (o1 : Byte)
  /-- `AND $nn`, opcode 0x25, R172. -/
  | andZp (o1 : Byte)
  /-- `AND $nn,X`, opcode 0x35, R173. -/
  | andZpx (o1 : Byte)
  /-- `AND $nnnn`, opcode 0x2D, R174. -/
  | andAbs (o1 o2 : Byte)
  /-- `AND $nnnn,X`, opcode 0x3D, R175. -/
  | andAbx (o1 o2 : Byte)
  /-- `AND $nnnn,Y`, opcode 0x39, R176. -/
  | andAby (o1 o2 : Byte)
  /-- `AND ($nn,X)`, opcode 0x21, R177. -/
  | andIzx (o1 : Byte)
  /-- `AND ($nn),Y`, opcode 0x31, R178. -/
  | andIzy (o1 : Byte)
  /-- `LDA #$nn`, opcode 0xA9, R191. -/
  | ldaImm (o1 : Byte)
  /-- `LDA $nn`, opcode 0xA5, R192. -/
  | ldaZp (o1 : Byte)
  /-- `LDA $nn,X`, opcode 0xB5, R193. -/
  | ldaZpx (o1 : Byte)
  /-- `LDA $nnnn`, opcode 0xAD, R194. -/
  | ldaAbs (o1 o2 : Byte)
  /-- `LDA $nnnn,X`, opcode 0xBD, R195. -/
  | ldaAbx (o1 o2 : Byte)
  /-- `LDA $nnnn,Y`, opcode 0xB9, R196. -/
  | ldaAby (o1 o2 : Byte)
  /-- `LDA ($nn,X)`, opcode 0xA1, R197. -/
  | ldaIzx (o1 : Byte)
  /-- `LDA ($nn),Y`, opcode 0xB1, R198. -/
  | ldaIzy (o1 : Byte)
  /-- `ASL A`, opcode 0x0A, R211. -/
  | aslAcc
  /-- `ASL $nn`, opcode 0x06, R212. -/
  | aslZp (o1 : Byte)
  /-- `ASL $nn,X`, opcode 0x16, R213. -/
  | aslZpx (o1 : Byte)
  /-- `ASL $nnnn`, opcode 0x0E, R214. -/
  | aslAbs (o1 o2 : Byte)
  /-- `ASL $nnnn,X`, opcode 0x1E, R215. -/
  | aslAbx (o1 o2 : Byte)
deriving DecidableEq, Repr

/-- The instruction identifier of a row (R86). -/
def Instr.op : Instr → Op
  | .adcImm _ => .adc
  | .adcZp _ => .adc
  | .adcZpx _ => .adc
  | .adcAbs _ _ => .adc
  | .adcAbx _ _ => .adc
  | .adcAby _ _ => .adc
  | .adcIzx _ => .adc
  | .adcIzy _ => .adc
  | .andImm _ => .and
  | .andZp _ => .and
  | .andZpx _ => .and
  | .andAbs _ _ => .and
  | .andAbx _ _ => .and
  | .andAby _ _ => .and
  | .andIzx _ => .and
  | .andIzy _ => .and
  | .ldaImm _ => .lda
  | .ldaZp _ => .lda
  | .ldaZpx _ => .lda
  | .ldaAbs _ _ => .lda
  | .ldaAbx _ _ => .lda
  | .ldaAby _ _ => .lda
  | .ldaIzx _ => .lda
  | .ldaIzy _ => .lda
  | .aslAcc => .asl
  | .aslZp _ => .asl
  | .aslZpx _ => .asl
  | .aslAbs _ _ => .asl
  | .aslAbx _ _ => .asl

/-- The addressing mode of a row (R86). -/
def Instr.mode : Instr → Mode
  | .adcImm _ => .imm
  | .adcZp _ => .zp
  | .adcZpx _ => .zpx
  | .adcAbs _ _ => .abs
  | .adcAbx _ _ => .abx
  | .adcAby _ _ => .aby
  | .adcIzx _ => .izx
  | .adcIzy _ => .izy
  | .andImm _ => .imm
  | .andZp _ => .zp
  | .andZpx _ => .zpx
  | .andAbs _ _ => .abs
  | .andAbx _ _ => .abx
  | .andAby _ _ => .aby
  | .andIzx _ => .izx
  | .andIzy _ => .izy
  | .ldaImm _ => .imm
  | .ldaZp _ => .zp
  | .ldaZpx _ => .zpx
  | .ldaAbs _ _ => .abs
  | .ldaAbx _ _ => .abx
  | .ldaAby _ _ => .aby
  | .ldaIzx _ => .izx
  | .ldaIzy _ => .izy
  | .aslAcc => .acc
  | .aslZp _ => .zp
  | .aslZpx _ => .zpx
  | .aslAbs _ _ => .abs
  | .aslAbx _ _ => .abx

/-- The operand bytes of an instruction, in memory order (R80). -/
def Instr.operandBytes : Instr → List Byte
  | .adcImm o1 => [o1]
  | .adcZp o1 => [o1]
  | .adcZpx o1 => [o1]
  | .adcAbs o1 o2 => [o1, o2]
  | .adcAbx o1 o2 => [o1, o2]
  | .adcAby o1 o2 => [o1, o2]
  | .adcIzx o1 => [o1]
  | .adcIzy o1 => [o1]
  | .andImm o1 => [o1]
  | .andZp o1 => [o1]
  | .andZpx o1 => [o1]
  | .andAbs o1 o2 => [o1, o2]
  | .andAbx o1 o2 => [o1, o2]
  | .andAby o1 o2 => [o1, o2]
  | .andIzx o1 => [o1]
  | .andIzy o1 => [o1]
  | .ldaImm o1 => [o1]
  | .ldaZp o1 => [o1]
  | .ldaZpx o1 => [o1]
  | .ldaAbs o1 o2 => [o1, o2]
  | .ldaAbx o1 o2 => [o1, o2]
  | .ldaAby o1 o2 => [o1, o2]
  | .ldaIzx o1 => [o1]
  | .ldaIzy o1 => [o1]
  | .aslAcc => []
  | .aslZp o1 => [o1]
  | .aslZpx o1 => [o1]
  | .aslAbs o1 o2 => [o1, o2]
  | .aslAbx o1 o2 => [o1, o2]

/-- The first operand byte (0x00 for a form that has none, which never reads it). -/
def Instr.o1 (i : Instr) : Byte := i.operandBytes.getD 0 0

/-- The second operand byte (0x00 for a form that has none, which never reads it). -/
def Instr.o2 (i : Instr) : Byte := i.operandBytes.getD 1 0

/-- The length of an instruction: one more than the operand bytes its mode reads (R80, D2). -/
def Instr.length (i : Instr) : Nat := 1 + i.mode.operandCount

end Sys2Proof
end

