-- ==== Sys2Proof/Config.lean ====
section
/-! DEFINITION. The hardware's parameters as a configuration (spec/00_scope.md R5: "a model should take it as a field
of its configuration with the default shown, so that a claim can name it"). The values this hardware takes are
`Sys2Proof.Machine.params` (Machine/Params.lean). The widths and counts of R5 (XLEN, ALEN, MEM_SIZE, N_FLAGS, N_MODES),
which the source fixes, are types. -/

namespace Sys2Proof

/-- ADDR_OVERFLOW (R5; decision D7; log 2): what an address sum outside 0..65535 does. -/
inductive AddrOverflow where
  /-- The sum is exact and such an address raises AddressOutOfRange (the hardware's value). -/
  | fault
  /-- The alternative of D7: every sum is reduced mod 65536. -/
  | wrap
deriving DecidableEq, Repr

/-- ASL_WRITEBACK (R5; R216; decision D8; log 3): where memory-mode ASL stores. -/
inductive AslWriteback where
  /-- The cell the operand was read from (the hardware's value). -/
  | effectiveAddress
  /-- The alternative of D8, which "reproduces the defect": the address equal to the operand's value. -/
  | operandValue
deriving DecidableEq, Repr

/-- The parameters of R5 that have a value rather than a type. Fixed for the machine, no part of its state (R20). -/
structure Config where
  /-- OPCODE_TABLE: a partial map from opcode byte to entry (R85; D1, D2, D3; log 1). -/
  opcodeTable : List (Byte × Entry)
  /-- RESET_VECTOR: the address of the vector's low byte; the high byte is at the next address (D4; log 4). -/
  resetVector : Nat
  /-- RESET_PC, once RESET_VECTOR is given: "a function from `mem` to a Word" (R262; D4; log 4). -/
  resetPc : Nat → (Nat → Byte) → Word
  /-- AXY_POWER_ON: A, X and Y at power-on and after reset (D5, D6; log 5). -/
  axyPowerOn : Byte
  /-- SP_RESET: the stack pointer after reset. -/
  spReset : Byte
  /-- STACK_PAGE: the first address of the stack page, which no rule reads (D13; log 15). -/
  stackPage : Nat
  /-- CYC_WIDTH: the width in bits of the cycle counter (R39; D14; log 7). -/
  cycWidth : Nat
  /-- ADDR_OVERFLOW (D7; log 2). -/
  addrOverflow : AddrOverflow
  /-- ASL_WRITEBACK (D8; log 3). -/
  aslWriteback : AslWriteback

end Sys2Proof
end

