-- ==== Sys2Proof/WellFormed.lean ====
section
/-! DEFINITION. What is checked of table entries, configurations and instructions (spec/30_encoding.md R85, R91, R94;
spec/70_reset_and_hazards.md R262). -/

namespace Sys2Proof

/-- A legal table entry: its length is 1, 2 or 3 (R26, R80), its cycle count a positive integer (R85), and it does not
pair ASL with Implied (R94, D21). Any other pairing of the four instructions with the thirteen modes is legal. -/
def Entry.wf (e : Entry) : Bool :=
  decide (1 ≤ e.length) && decide (e.length ≤ 3) && decide (0 < e.cycles)
    && !(decide (e.op = .asl) && decide (e.mode = .imp))

/-- A legal opcode table: "At most one entry exists per opcode byte (it is a map)" (R85) and every entry is legal. -/
def tableWf : List (Byte × Entry) → Bool
  | [] => true
  | (k, e) :: t => e.wf && !(t.map Prod.fst).contains k && tableWf t

/-- A configuration this model accepts: its table is legal (R94: a model refuses a table that has an illegal entry) and
both bytes of its reset vector are cells of memory (R262: "Both addresses are in range, so the load cannot fault"). -/
def Config.wf (cfg : Config) : Bool := tableWf cfg.opcodeTable && decide (cfg.resetVector + 1 ≤ 65535)

/-- A well-formed instruction: it has the operand bytes its mode reads, so that its length is the one R80 gives. The
operand bytes themselves have no reserved values: every value is legal (R91). -/
def Instr.wf (i : Instr) : Bool := decide (1 + i.operandBytes.length = i.length)

end Sys2Proof
end

