-- ==== Sys2Proof/Decode.lean ====
section
/-! DEFINITION. The opcode table of R86, the decoder (total, rejecting by name) and the encoder
(spec/30_encoding.md R80 to R91). -/

namespace Sys2Proof

/-- The ADC rows of R86. -/
def adcRows : List (Byte × Entry) := [
  (0x69, ⟨.adc, .imm, 2, 2⟩),
  (0x65, ⟨.adc, .zp, 2, 3⟩),
  (0x75, ⟨.adc, .zpx, 2, 4⟩),
  (0x6D, ⟨.adc, .abs, 3, 4⟩),
  (0x7D, ⟨.adc, .abx, 3, 4⟩),
  (0x79, ⟨.adc, .aby, 3, 4⟩),
  (0x61, ⟨.adc, .izx, 2, 6⟩),
  (0x71, ⟨.adc, .izy, 2, 5⟩)]

/-- The AND rows of R86. -/
def andRows : List (Byte × Entry) := [
  (0x29, ⟨.and, .imm, 2, 2⟩),
  (0x25, ⟨.and, .zp, 2, 3⟩),
  (0x35, ⟨.and, .zpx, 2, 4⟩),
  (0x2D, ⟨.and, .abs, 3, 4⟩),
  (0x3D, ⟨.and, .abx, 3, 4⟩),
  (0x39, ⟨.and, .aby, 3, 4⟩),
  (0x21, ⟨.and, .izx, 2, 6⟩),
  (0x31, ⟨.and, .izy, 2, 5⟩)]

/-- The LDA rows of R86. -/
def ldaRows : List (Byte × Entry) := [
  (0xA9, ⟨.lda, .imm, 2, 2⟩),
  (0xA5, ⟨.lda, .zp, 2, 3⟩),
  (0xB5, ⟨.lda, .zpx, 2, 4⟩),
  (0xAD, ⟨.lda, .abs, 3, 4⟩),
  (0xBD, ⟨.lda, .abx, 3, 4⟩),
  (0xB9, ⟨.lda, .aby, 3, 4⟩),
  (0xA1, ⟨.lda, .izx, 2, 6⟩),
  (0xB1, ⟨.lda, .izy, 2, 5⟩)]

/-- The ASL rows of R86. -/
def aslRows : List (Byte × Entry) := [
  (0x0A, ⟨.asl, .acc, 1, 2⟩),
  (0x06, ⟨.asl, .zp, 2, 5⟩),
  (0x16, ⟨.asl, .zpx, 2, 6⟩),
  (0x0E, ⟨.asl, .abs, 3, 6⟩),
  (0x1E, ⟨.asl, .abx, 3, 7⟩)]

/-- OPCODE_TABLE (R5, R86): 29 entries. Log 1. -/
def opcodeTable : List (Byte × Entry) := adcRows ++ andRows ++ ldaRows ++ aslRows

/-- The entry of an opcode byte, if the table has one: a lookup of the whole byte, no sub-fields (R81, R134). -/
def lookupEntry (table : List (Byte × Entry)) (opcode : Byte) : Option Entry := table.lookup opcode

/-- Why the decoder refuses a list of bytes. -/
inductive DecodeError where
  /-- No byte at all to decode. -/
  | noBytes
  /-- "look up its table entry; if absent, fail fatally with an unsupported opcode error" (R90). -/
  | unsupportedOpcode (opcode : Byte)
  /-- The list ends before the operand bytes the entry's mode reads (the machine always decodes three bytes,
  so no step meets this). -/
  | missingOperand (opcode : Byte)
deriving DecidableEq, Repr

/-- The instruction of an (instruction, mode) pair of the table and its operand bytes, with the bytes left over;
`none` where a byte is missing or no row of the table has the pair. -/
def assemble : Op → Mode → List Byte → Option (Instr × List Byte)
  | .adc, .imm, o1 :: bs => some (.adcImm o1, bs)
  | .adc, .zp, o1 :: bs => some (.adcZp o1, bs)
  | .adc, .zpx, o1 :: bs => some (.adcZpx o1, bs)
  | .adc, .abs, o1 :: o2 :: bs => some (.adcAbs o1 o2, bs)
  | .adc, .abx, o1 :: o2 :: bs => some (.adcAbx o1 o2, bs)
  | .adc, .aby, o1 :: o2 :: bs => some (.adcAby o1 o2, bs)
  | .adc, .izx, o1 :: bs => some (.adcIzx o1, bs)
  | .adc, .izy, o1 :: bs => some (.adcIzy o1, bs)
  | .and, .imm, o1 :: bs => some (.andImm o1, bs)
  | .and, .zp, o1 :: bs => some (.andZp o1, bs)
  | .and, .zpx, o1 :: bs => some (.andZpx o1, bs)
  | .and, .abs, o1 :: o2 :: bs => some (.andAbs o1 o2, bs)
  | .and, .abx, o1 :: o2 :: bs => some (.andAbx o1 o2, bs)
  | .and, .aby, o1 :: o2 :: bs => some (.andAby o1 o2, bs)
  | .and, .izx, o1 :: bs => some (.andIzx o1, bs)
  | .and, .izy, o1 :: bs => some (.andIzy o1, bs)
  | .lda, .imm, o1 :: bs => some (.ldaImm o1, bs)
  | .lda, .zp, o1 :: bs => some (.ldaZp o1, bs)
  | .lda, .zpx, o1 :: bs => some (.ldaZpx o1, bs)
  | .lda, .abs, o1 :: o2 :: bs => some (.ldaAbs o1 o2, bs)
  | .lda, .abx, o1 :: o2 :: bs => some (.ldaAbx o1 o2, bs)
  | .lda, .aby, o1 :: o2 :: bs => some (.ldaAby o1 o2, bs)
  | .lda, .izx, o1 :: bs => some (.ldaIzx o1, bs)
  | .lda, .izy, o1 :: bs => some (.ldaIzy o1, bs)
  | .asl, .acc, bs => some (.aslAcc, bs)
  | .asl, .zp, o1 :: bs => some (.aslZp o1, bs)
  | .asl, .zpx, o1 :: bs => some (.aslZpx o1, bs)
  | .asl, .abs, o1 :: o2 :: bs => some (.aslAbs o1 o2, bs)
  | .asl, .abx, o1 :: o2 :: bs => some (.aslAbx o1 o2, bs)
  | _, _, _ => none

/-- Decode the instruction at the head of a list of bytes in memory order (R54, R80, R82): the instruction and
the bytes after it, or the reason there is none. -/
def decode : List Byte → Except DecodeError (Instr × List Byte)
  | [] => .error .noBytes
  | opcode :: rest =>
    match lookupEntry opcodeTable opcode with
    | none => .error (.unsupportedOpcode opcode)
    | some e =>
      match assemble e.op e.mode rest with
      | none => .error (.missingOperand opcode)
      | some r => .ok r

/-- The opcode byte of an instruction, written out from R86. -/
def Instr.opcode : Instr → Byte
  | .adcImm _ => 0x69
  | .adcZp _ => 0x65
  | .adcZpx _ => 0x75
  | .adcAbs _ _ => 0x6D
  | .adcAbx _ _ => 0x7D
  | .adcAby _ _ => 0x79
  | .adcIzx _ => 0x61
  | .adcIzy _ => 0x71
  | .andImm _ => 0x29
  | .andZp _ => 0x25
  | .andZpx _ => 0x35
  | .andAbs _ _ => 0x2D
  | .andAbx _ _ => 0x3D
  | .andAby _ _ => 0x39
  | .andIzx _ => 0x21
  | .andIzy _ => 0x31
  | .ldaImm _ => 0xA9
  | .ldaZp _ => 0xA5
  | .ldaZpx _ => 0xB5
  | .ldaAbs _ _ => 0xAD
  | .ldaAbx _ _ => 0xBD
  | .ldaAby _ _ => 0xB9
  | .ldaIzx _ => 0xA1
  | .ldaIzy _ => 0xB1
  | .aslAcc => 0x0A
  | .aslZp _ => 0x06
  | .aslZpx _ => 0x16
  | .aslAbs _ _ => 0x0E
  | .aslAbx _ _ => 0x1E

/-- The bytes of an instruction in memory order: opcode, then operand bytes (R80). -/
def encode (i : Instr) : List Byte := i.opcode :: i.operandBytes

/-- Byte `k` of an instruction whose bits are numbered as spec/opcode_table.json numbers them (bit 0 is the least
significant bit of the first byte), every bit from `nbits` up being 0. -/
def tableByte (nbits w k : Nat) : Byte := BitVec.ofNat 8 (w % 2 ^ nbits / 2 ^ (8 * k))

/-- The bytes of such an instruction, up to the longest instruction's three (R80). -/
def tableBytes (nbits w : Nat) : List Byte := [tableByte nbits w 0, tableByte nbits w 1, tableByte nbits w 2]

/-- The instruction the decoder reads from an instruction word numbered as the table numbers it. -/
def decodeTableWord (nbits w : Nat) : Option Instr :=
  match decode (tableBytes nbits w) with
  | .ok (i, _) => some i
  | .error _ => none

end Sys2Proof
end

