-- ==== Sys2Proof/Machine/Bits.lean ====
section
/-! DEFINITION. Byte assembly and sign extension (spec/00_scope.md R8; spec/20_memory.md R54, R55). -/

namespace Sys2Proof.Machine

/-- `Word(lo, hi) = lo + 256 * hi` (R8), little-endian (R54); used for pointers and the reset vector too (R55, D12; log 8). -/
def mkWord (lo hi : Byte) : Word := BitVec.ofNat 16 (lo.toNat + 256 * hi.toNat)

/-- `sext_8(b)`: "`b` if `b < 128`, else `b - 256`", an Int in -128..127 (R8). -/
def sext8 (b : Byte) : Int := if b.toNat < 128 then (b.toNat : Int) else (b.toNat : Int) - 256

end Sys2Proof.Machine
end

