-- ==== Sys2Proof/Machine/Params.lean ====
section
/-! DEFINITION. The values this hardware's parameters take (spec/00_scope.md R5) and what unlisted memory reads as. -/

namespace Sys2Proof.Machine

/-- What a cell that the memory list does not name reads as: "all zero-initialized" (10_state.md R36, R41; log 14). -/
def unlistedByte : Byte := 0x00

/-- RESET_VECTOR, the address of the low byte; the high byte is at 0xFFFD (R5, R262, D4; log 4). -/
def resetVectorAddress : Nat := 0xFFFC

/-- RESET_PC: the word at the vector, low byte first, `PC <- Word(mem[0xFFFC], mem[0xFFFD])` (R262, D4, D12; log 4,
log 8). -/
def resetPcFromVector (vector : Nat) (read : Nat → Byte) : Word := mkWord (read vector) (read (vector + 1))

/-- The PC after `power_on` and `reset()` under a configuration: its RESET_PC at its RESET_VECTOR (R262). -/
def pcAtReset (cfg : Config) (read : Nat → Byte) : Word := cfg.resetPc cfg.resetVector read

/-- The configuration of this hardware, R5's table row by row (logs 1 to 5, 7 and 15). -/
def params : Config where
  opcodeTable := opcodeTable
  resetVector := resetVectorAddress
  resetPc := resetPcFromVector
  axyPowerOn := 0x00
  spReset := 0xFD
  stackPage := 0x0100
  cycWidth := 64
  addrOverflow := .fault
  aslWriteback := .effectiveAddress

end Sys2Proof.Machine
end

