-- ==== Sys2Proof/Machine/State.lean ====
section
/-! DEFINITION. The state of the machine (spec/10_state.md R20), the reasons a step can stop, and the state after
reset (R41). -/

namespace Sys2Proof.Machine

/-- The memory (R36, R50): the cells that differ from `unlistedByte`, as (address, byte) pairs in strictly rising order
of address. Canonical, so equal memories are equal data (log 14). -/
abbrev Memory := List Host.Cell

/-- `m` is canonical from address `lo` on. -/
def memoryWfFrom (lo : Nat) : Memory → Bool
  | [] => true
  | (k, v) :: t => decide (lo ≤ k) && decide (k < 65536) && decide (v ≠ unlistedByte) && memoryWfFrom (k + 1) t

/-- The canonical form: addresses strictly rising and inside 0..65535 (MEM_SIZE, R5), no cell listed at the value an
unlisted address reads as. -/
def Memory.wf (m : Memory) : Bool := memoryWfFrom 0 m

/-- The phase of the fetch/decode/execute state machine (R37, R130). -/
inductive Phase where
  /-- After `power_on` or `reset()`, before the first step. -/
  | reset
  /-- After a step that completed. -/
  | running
  /-- After a fault: absorbing, nothing more is executed (decision D10; log 6). -/
  | halted
deriving DecidableEq, Repr

/-- The fault record (R38, R230): the offending opcode or address, and the PC of the faulting instruction. -/
inductive FaultRecord where
  /-- The opcode byte has no table entry (R231). -/
  | unsupportedOpcode (opcode : Byte) (pc : Word)
  /-- A memory access at an address outside 0..65535; the address is an Int (R232). -/
  | addressOutOfRange (addr : Int) (pc : Word)
deriving DecidableEq, Repr

/-- The complete state (R20): "Nothing else is state". -/
structure State where
  /-- accumulator (R21) -/
  a : Byte
  /-- index register X (R22) -/
  x : Byte
  /-- index register Y (R23) -/
  y : Byte
  /-- stack pointer (R24) -/
  sp : Byte
  /-- program counter (R25) -/
  pc : Word
  /-- Carry (R28) -/
  flagC : Bool
  /-- Zero (R29) -/
  flagZ : Bool
  /-- Interrupt-disable (R30) -/
  flagI : Bool
  /-- Decimal (R30) -/
  flagD : Bool
  /-- Break (R30) -/
  flagB : Bool
  /-- Overflow (R31) -/
  flagV : Bool
  /-- Negative (R32) -/
  flagN : Bool
  /-- addressable memory (R36) -/
  mem : Memory
  /-- state of the state machine (R37) -/
  phase : Phase
  /-- FAULT, the record of the fatal error that stopped the core, if one did (R38) -/
  fault : Option FaultRecord
  /-- CYC, the sum of the declared cycle counts modulo 2^64 (R39; decision D14); a number, below
  2^CYC_WIDTH by the invariant (log 7) -/
  cyc : Nat
deriving DecidableEq, Repr

/-- Why the machine takes no step at all. -/
inductive Fault where
  /-- Raised by `step` (and `stepWith`) alone, in phase Halted: "A model should give a Halted state no step at all" (R142).
  Safe: nothing can be proved to happen after a fault. The two fatal errors of R230 are not here: a step TAKES them, as a
  next state with FAULT recorded and phase Halted (R240; log 6). -/
  | halted
deriving DecidableEq, Repr

/-- What the model refuses to do. -/
inductive Refusal where
  /-- An instruction that has no meaning yet; raised by arms of `exec` only, and by none of them now. Safe. -/
  | notModelled (mnemonic : String)
  /-- Raised by the table-driven step for a configuration that pairs ASL with a mode that has no effective address
  (Implied): "a model refuses such a table" (R94, D21; log 16). No entry of this hardware's table does. Safe. -/
  | aslWithoutAddress
  /-- Raised by the host actions `load` and `clear` outside phase Reset (R69, R266, D17; log 10). Safe. -/
  | loadOutsideReset
  /-- Raised by the host action `load` when it would pass 0xFFFF: "refused whole" (R266, D17; log 10). Safe. -/
  | loadPastTop
deriving DecidableEq, Repr

/-- The machine right after `power_on` (R41, R261): memory all zero, A, X, Y at AXY_POWER_ON, SP at 0xFD, all flags
cleared, PC from the reset vector read from the zeroed memory, CYC zero, no fault, phase Reset. -/
def State.reset : State where
  a := params.axyPowerOn
  x := params.axyPowerOn
  y := params.axyPowerOn
  sp := params.spReset
  pc := pcAtReset params fun _ => unlistedByte
  flagC := false
  flagZ := false
  flagI := false
  flagD := false
  flagB := false
  flagV := false
  flagN := false
  mem := []
  phase := .reset
  fault := none
  cyc := 0

end Sys2Proof.Machine
end

