-- ==== Sys2Proof/Machine/Ops.lean ====
section
/-! DEFINITION. The named operations over memory and registers, taking a fault, and fetching an instruction's bytes
(spec/20_memory.md R51 to R53; spec/10_state.md R26, R39; spec/60_exceptions.md R240; spec/40_addressing_modes.md R101, R116). -/

namespace Sys2Proof.Machine

/-- The outcome of a step of this machine. -/
abbrev Result := Host.Outcome State Fault Refusal

/-! Memory -/

/-- `mem[a]`: the listed byte, or what an unlisted cell reads as. -/
def Memory.read : Memory → Nat → Byte
  | [], _ => unlistedByte
  | (k, v) :: t, a => if k = a then v else Memory.read t a

/-- `mem[a] <- v`, keeping the canonical form. -/
def Memory.write : Memory → Nat → Byte → Memory
  | [], a, v => if v = unlistedByte then [] else [(a, v)]
  | (k, w) :: t, a, v =>
    if a < k then (if v = unlistedByte then (k, w) :: t else (a, v) :: (k, w) :: t)
    else if a = k then (if v = unlistedByte then t else (a, v) :: t)
    else (k, w) :: Memory.write t a v

/-- `mem[a + i] <- bytes[i]` for every byte of a list, from the first on. -/
def Memory.writeBytes : Memory → Nat → List Byte → Memory
  | m, _, [] => m
  | m, a, b :: bs => Memory.writeBytes (Memory.write m a b) (a + 1) bs

/-- The addresses that exist: 0..65535 (R51). -/
abbrev InRange (a : Int) : Prop := 0 ≤ a ∧ a ≤ 65535

/-- The check of an address. It is `InRange` (`inRange_iff`), by cases on the sign so that it compares naturals only. -/
def inRange : Int → Bool
  | .ofNat n => decide (n ≤ 65535)
  | .negSucc _ => false

/-- `MemRead(a, 1)` (R8, R51): the cell, or the offending address where AddressOutOfRange is raised. -/
def memRead (s : State) (a : Int) : Except Int Byte :=
  if inRange a then .ok (s.mem.read a.toNat) else .error a

/-- Replace the memory. -/
def State.setMem (m : Memory) (s : State) : State := { s with mem := m }

/-- `MemWrite(a, 1, v)` (R8, R52): one cell becomes `v mod 256` (R53, D9; log 9), or the offending address. -/
def memWrite (s : State) (a : Int) (v : Int) : Except Int State :=
  if inRange a then .ok (s.setMem (s.mem.write a.toNat (BitVec.ofInt 8 v))) else .error a

/-- An address sum as the machine presents it: exact, or reduced mod 65536 under the alternative of D7 (R116; log 2). -/
def sumAddr (cfg : Config) (a : Int) : Int :=
  match cfg.addrOverflow with
  | .fault => a
  | .wrap => a % 65536

/-! Registers and flags -/

/-- Write A. -/
def State.setA (v : Byte) (s : State) : State := { s with a := v }

/-- Write C. -/
def State.setC (v : Bool) (s : State) : State := { s with flagC := v }

/-- Write Z. -/
def State.setZ (v : Bool) (s : State) : State := { s with flagZ := v }

/-- Write N. -/
def State.setN (v : Bool) (s : State) : State := { s with flagN := v }

/-- Write V. -/
def State.setV (v : Bool) (s : State) : State := { s with flagV := v }

/-- The end of a step that completes (R132): `PC <- (PC + length) mod 65536` (R26), `CYC <- (CYC + cycles) mod 2^64`
(R39, CYC_WIDTH being 64), `phase <- Running` (R131). -/
def State.complete (cfg : Config) (length cycles : Nat) (s : State) : State :=
  { s with pc := s.pc + BitVec.ofNat 16 length, cyc := (s.cyc + cycles) % 2 ^ cfg.cycWidth, phase := .running }

/-! Faults -/

/-- TAKING A FAULT (R240): `FAULT <- record`, `phase <- Halted`, nothing else changes; no vector, no push, no mode. There
is no return from it (R242). -/
def State.takeFault (r : FaultRecord) (s : State) : State := { s with fault := some r, phase := .halted }

/-- The code of a fault (R230, D11: a label only). -/
def faultCode : FaultRecord → Nat
  | .unsupportedOpcode _ _ => 1
  | .addressOutOfRange _ _ => 2

/-- `raise AddressOutOfRange(a)` (R8, R232): the record holds the address and the PC, which still addresses the
instruction. A step takes the fault and ends in the Halted state (log 6). -/
def raiseAddress (s : State) (a : Int) : Result := .next (s.takeFault (.addressOutOfRange a s.pc))

/-- `raise UnsupportedOpcode(opcode)` (R8, R231). -/
def raiseOpcode (s : State) (opcode : Byte) : Result := .next (s.takeFault (.unsupportedOpcode opcode s.pc))

/-! Fetching -/

/-- The byte `k` past the opcode's, as the fetch delivers it to the decoder. Past 0xFFFF there is no byte; 0x00 stands
for it, and the instruction that has it as an operand byte raises AddressOutOfRange without using it (R101; log 12). -/
def fetchByte (cfg : Config) (s : State) (k : Nat) : Byte :=
  if inRange (sumAddr cfg ((s.pc.toNat + k : Nat) : Int)) then
    s.mem.read (sumAddr cfg ((s.pc.toNat + k : Nat) : Int)).toNat
  else 0x00

/-- The three bytes at PC, PC+1 and PC+2: the longest instruction (R80). -/
def fetchWindow (cfg : Config) (s : State) : List Byte := [fetchByte cfg s 0, fetchByte cfg s 1, fetchByte cfg s 2]

/-- FETCH and DECODE (R133, R134): the instruction at PC. -/
def fetchDecode (s : State) : Except DecodeError (Instr × List Byte) := decode (fetchWindow params s)

/-- A step whose opcode byte has no table entry (R231). -/
def raiseUndecoded (s : State) : Result := raiseOpcode s (fetchByte params s 0)

/-- The bytes of an instruction placed where the next step fetches: at PC, PC+1, PC+2, those past 0xFFFF left out. -/
def placeAtPc (s : State) (bytes : List Byte) : State :=
  s.setMem (s.mem.writeBytes s.pc.toNat (bytes.take (65536 - s.pc.toNat)))

/-- The cell SP designates, `STACK_PAGE + SP` (R24, D13; log 15). No rule and no other definition uses it. -/
def stackAddress (cfg : Config) (s : State) : Nat := cfg.stackPage + s.sp.toNat

end Sys2Proof.Machine
end

