-- ==== Sys2Proof/Machine/Flags.lean ====
section
/-! DEFINITION. The results and flags of the four instructions (spec/42_adc.md R150; spec/43_and.md R170;
spec/44_lda.md R190; spec/45_asl.md R210; spec/10_state.md R28 to R33). -/

namespace Sys2Proof.Machine

/-- `t = a + m + C`, exact, 0..511 (R150). -/
def adcSum (a m : Byte) (c : Bool) : Nat := a.toNat + m.toNat + c.toNat

/-- `r = t mod 256`, the stored A (R150). -/
def adcResult (a m : Byte) (c : Bool) : Byte := BitVec.ofNat 8 (adcSum a m c % 256)

/-- `C <- 1 if t > 255`: the only flag of ADC taken from the untruncated sum (R150, 90_conflicts.md C6). -/
def adcCarry (a m : Byte) (c : Bool) : Bool := decide (adcSum a m c > 255)

/-- `V <- 1 if ((~(a ^ m)) & (a ^ r) & 0x80) != 0` (R150). -/
def adcOverflow (a m : Byte) (c : Bool) : Bool :=
  decide ((~~~(a ^^^ m)) &&& (a ^^^ adcResult a m c) &&& (0x80 : Byte) ≠ 0)

/-- `r = A & m` (R170). -/
def andResult (a m : Byte) : Byte := a &&& m

/-- `r = m & 0xFF` (R190). -/
def ldaResult (m : Byte) : Byte := m &&& 0xFF

/-- `r = (m << 1) & 0xFF` (R210). -/
def aslResult (m : Byte) : Byte := (m <<< 1) &&& 0xFF

/-- `c = m[7]` (R210). -/
def aslCarry (m : Byte) : Bool := m.getLsbD 7

/-- Z: 1 if and only if the 8-bit result is 0x00 (R29). -/
def zeroFlag (r : Byte) : Bool := decide (r = 0)

/-- N: bit 7 of the 8-bit result (R32). -/
def negativeFlag (r : Byte) : Bool := r.getLsbD 7

/-- Write Z and N from a result, as all four instructions do (R29, R32, R33). -/
def State.setZN (r : Byte) (s : State) : State := (s.setZ (zeroFlag r)).setN (negativeFlag r)

end Sys2Proof.Machine
end

