-- ==== Sys2Proof/Machine/Operands.lean ====
section
/-! DEFINITION. The addressing-mode resolver: the thirteen modes of spec/40_addressing_modes.md R100 to R118. Each answers
the operand `m` and the effective address `ea`, or the address at which AddressOutOfRange is raised. Resolving changes no
state (R115). The accesses come in the order of spec/20_memory.md R67 and the first bad address is the one raised (R235). -/

namespace Sys2Proof.Machine

/-- What a mode resolves to (R100): the operand `m` and the effective address `ea`, if the mode has one. -/
structure Operand where
  value : Byte
  ea : Option Int
deriving DecidableEq, Repr

/-- The address `PC + k` of an operand byte: an exact sum, no wrap (R101, D7). -/
def operandAddr (cfg : Config) (s : State) (k : Nat) : Int := sumAddr cfg ((s.pc.toNat + k : Nat) : Int)

/-- `MemRead(PC + k, 1)` (R101), whose value `v` the decoder has already delivered (log 12): what is left of it is that
the address may be out of range. -/
def operandByte (cfg : Config) (s : State) (k : Nat) (v : Byte) : Except Int Byte :=
  if inRange (operandAddr cfg s k) then .ok v else .error (operandAddr cfg s k)

/-- `m = MemRead(ea, 1)`: the operand is "an already-dereferenced value, not an address" (R117). -/
def loadOperand (s : State) (ea : Int) : Except Int Operand := do
  let m ← memRead s ea
  .ok ⟨m, some ea⟩

/-- A pointer from two cells, low byte first (R55, D12; log 8). -/
def readPointer (s : State) (loAddr hiAddr : Int) : Except Int Word := do
  let lo ← memRead s loAddr
  let hi ← memRead s hiAddr
  .ok (mkWord lo hi)

/-- Accumulator: `m = A`, no memory access, cannot fault (R102). -/
def resolveAcc (s : State) : Except Int Operand := .ok ⟨s.a, none⟩

/-- Implied: "no operand; returns a sentinel zero" (R114). -/
def resolveImp : Except Int Operand := .ok ⟨0x00, none⟩

/-- Immediate: `ea = PC + 1` (R103). -/
def resolveImm (cfg : Config) (o1 : Byte) (s : State) : Except Int Operand := do
  let m ← operandByte cfg s 1 o1
  .ok ⟨m, some (operandAddr cfg s 1)⟩

/-- Zero-Page: `ea = o1` (R104). -/
def resolveZp (cfg : Config) (o1 : Byte) (s : State) : Except Int Operand := do
  let z ← operandByte cfg s 1 o1
  loadOperand s z.toNat

/-- Zero-Page,X and Zero-Page,Y: `ea = (o1 + index) mod 256`, "wraps within page zero" (R105, R106). -/
def resolveZpIndexed (cfg : Config) (o1 index : Byte) (s : State) : Except Int Operand := do
  let z ← operandByte cfg s 1 o1
  loadOperand s ((z.toNat + index.toNat) % 256 : Nat)

/-- Absolute: `ea = Word(o1, o2)` (R107). -/
def resolveAbs (cfg : Config) (o1 o2 : Byte) (s : State) : Except Int Operand := do
  let lo ← operandByte cfg s 1 o1
  let hi ← operandByte cfg s 2 o2
  loadOperand s (mkWord lo hi).toNat

/-- Absolute,X and Absolute,Y: `ea = Word(o1, o2) + index`, no reduction (R108, R109, R116). -/
def resolveAbsIndexed (cfg : Config) (o1 o2 index : Byte) (s : State) : Except Int Operand := do
  let lo ← operandByte cfg s 1 o1
  let hi ← operandByte cfg s 2 o2
  loadOperand s (sumAddr cfg ((mkWord lo hi).toNat + index.toNat : Nat))

/-- Relative: `ea = PC + 2 + sext_8(o1)`; the byte stored there, not the target (R110, R117; 90_conflicts.md C1). -/
def resolveRel (cfg : Config) (o1 : Byte) (s : State) : Except Int Operand := do
  let off ← operandByte cfg s 1 o1
  loadOperand s (sumAddr cfg ((s.pc.toNat + 2 : Nat) + sext8 off))

/-- Indirect,X: the pointer is at `z = (o1 + X) mod 256` and `(z + 1) mod 256` (R111). -/
def resolveIzx (cfg : Config) (o1 : Byte) (s : State) : Except Int Operand := do
  let b ← operandByte cfg s 1 o1
  let ptr ← readPointer s ((b.toNat + s.x.toNat) % 256 : Nat) (((b.toNat + s.x.toNat) % 256 + 1) % 256 : Nat)
  loadOperand s ptr.toNat

/-- Indirect,Y: the pointer is at `o1` and `(o1 + 1) mod 256`, `ea = ptr + Y`, no reduction (R112, R116). -/
def resolveIzy (cfg : Config) (o1 : Byte) (s : State) : Except Int Operand := do
  let b ← operandByte cfg s 1 o1
  let ptr ← readPointer s b.toNat ((b.toNat + 1) % 256 : Nat)
  loadOperand s (sumAddr cfg (ptr.toNat + s.y.toNat : Nat))

/-- Absolute-Indirect: the pointer `ptr = Word(o1, o2)`, the target from `ptr` and `(ptr + 1) mod 65536`; the byte at the
target (R113, R117). -/
def resolveInd (cfg : Config) (o1 o2 : Byte) (s : State) : Except Int Operand := do
  let lo ← operandByte cfg s 1 o1
  let hi ← operandByte cfg s 2 o2
  let target ← readPointer s (mkWord lo hi).toNat (((mkWord lo hi).toNat + 1) % 65536 : Nat)
  loadOperand s target.toNat

/-- `Resolve(mode, state)` (R100) for an instruction whose operand bytes are `o1` and `o2`; a mode that reads fewer
ignores the rest. -/
def resolve (cfg : Config) (mode : Mode) (o1 o2 : Byte) (s : State) : Except Int Operand :=
  match mode with
  | .acc => resolveAcc s
  | .imm => resolveImm cfg o1 s
  | .abs => resolveAbs cfg o1 o2 s
  | .zp => resolveZp cfg o1 s
  | .zpx => resolveZpIndexed cfg o1 s.x s
  | .zpy => resolveZpIndexed cfg o1 s.y s
  | .abx => resolveAbsIndexed cfg o1 o2 s.x s
  | .aby => resolveAbsIndexed cfg o1 o2 s.y s
  | .imp => resolveImp
  | .rel => resolveRel cfg o1 s
  | .izx => resolveIzx cfg o1 s
  | .izy => resolveIzy cfg o1 s
  | .ind => resolveInd cfg o1 o2 s

/-- `Resolve(mode, state)` of the instruction in memory at PC: the operand bytes are the ones fetched there (R100, R101). -/
def resolveAtPc (cfg : Config) (mode : Mode) (s : State) : Except Int Operand :=
  resolve cfg mode (fetchByte cfg s 1) (fetchByte cfg s 2) s

/-- An instruction that only reads its operand, or shifts the accumulator: resolve, apply `effect` to the operand, advance
(R132, R136). A bad address is raised before anything is written (R241). -/
def readForm (cfg : Config) (mode : Mode) (length cycles : Nat) (effect : Byte → State → State) (o1 o2 : Byte)
    (s : State) : Result :=
  match resolve cfg mode o1 o2 s with
  | .error a => raiseAddress s a
  | .ok operand => .next ((effect operand.value s).complete cfg length cycles)

end Sys2Proof.Machine
end

