-- ==== Sys2Proof/Machine/Adc.lean ====
section
/-! DEFINITION. Add-with-carry (spec/42_adc.md R150 to R161). -/

namespace Sys2Proof.Machine

/-- ADC for an operand `m` delivered by any mode (R150): A takes the stored sum, C Z V N are written, all from the old A
and C. D is not read (R160). -/
def adcEffect (m : Byte) (s : State) : State :=
  (((s.setA (adcResult s.a m s.flagC)).setC (adcCarry s.a m s.flagC)).setZN (adcResult s.a m s.flagC)).setV
    (adcOverflow s.a m s.flagC)


/-- `ADC #$nn`, mode IMM, length 2, cycles 2 (R151). -/
def execAdcImm (o1 : Byte) (s : State) : Result := readForm params .imm 2 2 adcEffect o1 0 s

/-- `ADC $nn`, mode ZP, length 2, cycles 3 (R152). -/
def execAdcZp (o1 : Byte) (s : State) : Result := readForm params .zp 2 3 adcEffect o1 0 s

/-- `ADC $nn,X`, mode ZPX, length 2, cycles 4 (R153). -/
def execAdcZpx (o1 : Byte) (s : State) : Result := readForm params .zpx 2 4 adcEffect o1 0 s

/-- `ADC $nnnn`, mode ABS, length 3, cycles 4 (R154). -/
def execAdcAbs (o1 o2 : Byte) (s : State) : Result := readForm params .abs 3 4 adcEffect o1 o2 s

/-- `ADC $nnnn,X`, mode ABX, length 3, cycles 4 (R155). -/
def execAdcAbx (o1 o2 : Byte) (s : State) : Result := readForm params .abx 3 4 adcEffect o1 o2 s

/-- `ADC $nnnn,Y`, mode ABY, length 3, cycles 4 (R156). -/
def execAdcAby (o1 o2 : Byte) (s : State) : Result := readForm params .aby 3 4 adcEffect o1 o2 s

/-- `ADC ($nn,X)`, mode IZX, length 2, cycles 6 (R157). -/
def execAdcIzx (o1 : Byte) (s : State) : Result := readForm params .izx 2 6 adcEffect o1 0 s

/-- `ADC ($nn),Y`, mode IZY, length 2, cycles 5 (R158). -/
def execAdcIzy (o1 : Byte) (s : State) : Result := readForm params .izy 2 5 adcEffect o1 0 s

end Sys2Proof.Machine
end

