-- ==== Sys2Proof/Machine/And.lean ====
section
/-! DEFINITION. Logical AND (spec/43_and.md R170 to R179). -/

namespace Sys2Proof.Machine

/-- AND for an operand `m` delivered by any mode (R170): A takes `A & m`, Z N are written. -/
def andEffect (m : Byte) (s : State) : State := (s.setA (andResult s.a m)).setZN (andResult s.a m)


/-- `AND #$nn`, mode IMM, length 2, cycles 2 (R171). -/
def execAndImm (o1 : Byte) (s : State) : Result := readForm params .imm 2 2 andEffect o1 0 s

/-- `AND $nn`, mode ZP, length 2, cycles 3 (R172). -/
def execAndZp (o1 : Byte) (s : State) : Result := readForm params .zp 2 3 andEffect o1 0 s

/-- `AND $nn,X`, mode ZPX, length 2, cycles 4 (R173). -/
def execAndZpx (o1 : Byte) (s : State) : Result := readForm params .zpx 2 4 andEffect o1 0 s

/-- `AND $nnnn`, mode ABS, length 3, cycles 4 (R174). -/
def execAndAbs (o1 o2 : Byte) (s : State) : Result := readForm params .abs 3 4 andEffect o1 o2 s

/-- `AND $nnnn,X`, mode ABX, length 3, cycles 4 (R175). -/
def execAndAbx (o1 o2 : Byte) (s : State) : Result := readForm params .abx 3 4 andEffect o1 o2 s

/-- `AND $nnnn,Y`, mode ABY, length 3, cycles 4 (R176). -/
def execAndAby (o1 o2 : Byte) (s : State) : Result := readForm params .aby 3 4 andEffect o1 o2 s

/-- `AND ($nn,X)`, mode IZX, length 2, cycles 6 (R177). -/
def execAndIzx (o1 : Byte) (s : State) : Result := readForm params .izx 2 6 andEffect o1 0 s

/-- `AND ($nn),Y`, mode IZY, length 2, cycles 5 (R178). -/
def execAndIzy (o1 : Byte) (s : State) : Result := readForm params .izy 2 5 andEffect o1 0 s

end Sys2Proof.Machine
end

