-- ==== Sys2Proof/Machine/Asl.lean ====
section
/-! DEFINITION. Shift left (spec/45_asl.md R210 to R218). -/

namespace Sys2Proof.Machine

/-- The flags of ASL: C takes bit 7 of the operand, Z N come from the result; the old C is not read (R210). -/
def aslFlags (m : Byte) (s : State) : State := (s.setC (aslCarry m)).setZN (aslResult m)

/-- ASL in Accumulator mode: the result goes to A (R210, R211). -/
def aslAccEffect (m : Byte) (s : State) : State := aslFlags m (s.setA (aslResult m))

/-- Where memory-mode ASL stores (R216): the effective address, or, under the alternative of D8, the address equal to the
operand's value (log 3). -/
def aslTarget (cfg : Config) (m : Byte) (ea : Int) : Int :=
  match cfg.aslWriteback with
  | .effectiveAddress => ea
  | .operandValue => m.toNat

/-- ASL in a memory mode: the result goes to memory, A is not touched (R210, R216, R218). -/
def aslMemoryEffect (cfg : Config) (m : Byte) (ea : Int) (s : State) : Except Int State := do
  let s' ← memWrite s (aslTarget cfg m ea) (aslResult m).toNat
  .ok (aslFlags m s')

/-- A memory-mode ASL: resolve, write the cell and the flags, advance (R132, R136). Under a table that pairs ASL with a
mode that has no effective address it is refused (R94, D21; log 16). -/
def aslMemoryForm (cfg : Config) (mode : Mode) (length cycles : Nat) (o1 o2 : Byte) (s : State) : Result :=
  match resolve cfg mode o1 o2 s with
  | .error a => raiseAddress s a
  | .ok operand =>
    match operand.ea with
    | none => .refused .aslWithoutAddress
    | some ea =>
      match aslMemoryEffect cfg operand.value ea s with
      | .error a => raiseAddress s a
      | .ok s' => .next (s'.complete cfg length cycles)


/-- `ASL A`, mode ACC, length 1, cycles 2 (R211). -/
def execAslAcc (s : State) : Result := readForm params .acc 1 2 aslAccEffect 0 0 s

/-- `ASL $nn`, mode ZP, length 2, cycles 5 (R212). -/
def execAslZp (o1 : Byte) (s : State) : Result := aslMemoryForm params .zp 2 5 o1 0 s

/-- `ASL $nn,X`, mode ZPX, length 2, cycles 6 (R213). -/
def execAslZpx (o1 : Byte) (s : State) : Result := aslMemoryForm params .zpx 2 6 o1 0 s

/-- `ASL $nnnn`, mode ABS, length 3, cycles 6 (R214). -/
def execAslAbs (o1 o2 : Byte) (s : State) : Result := aslMemoryForm params .abs 3 6 o1 o2 s

/-- `ASL $nnnn,X`, mode ABX, length 3, cycles 7 (R215). -/
def execAslAbx (o1 o2 : Byte) (s : State) : Result := aslMemoryForm params .abx 3 7 o1 o2 s

end Sys2Proof.Machine
end

