-- ==== Sys2Proof/Machine/Lda.lean ====
section
/-! DEFINITION. Load accumulator (spec/44_lda.md R190 to R199). -/

namespace Sys2Proof.Machine

/-- LDA for an operand `m` delivered by any mode (R190): A takes `m`, Z N are written; the old A is not read. -/
def ldaEffect (m : Byte) (s : State) : State := (s.setA (ldaResult m)).setZN (ldaResult m)


/-- `LDA #$nn`, mode IMM, length 2, cycles 2 (R191). -/
def execLdaImm (o1 : Byte) (s : State) : Result := readForm params .imm 2 2 ldaEffect o1 0 s

/-- `LDA $nn`, mode ZP, length 2, cycles 3 (R192). -/
def execLdaZp (o1 : Byte) (s : State) : Result := readForm params .zp 2 3 ldaEffect o1 0 s

/-- `LDA $nn,X`, mode ZPX, length 2, cycles 4 (R193). -/
def execLdaZpx (o1 : Byte) (s : State) : Result := readForm params .zpx 2 4 ldaEffect o1 0 s

/-- `LDA $nnnn`, mode ABS, length 3, cycles 4 (R194). -/
def execLdaAbs (o1 o2 : Byte) (s : State) : Result := readForm params .abs 3 4 ldaEffect o1 o2 s

/-- `LDA $nnnn,X`, mode ABX, length 3, cycles 4 (R195). -/
def execLdaAbx (o1 o2 : Byte) (s : State) : Result := readForm params .abx 3 4 ldaEffect o1 o2 s

/-- `LDA $nnnn,Y`, mode ABY, length 3, cycles 4 (R196). -/
def execLdaAby (o1 o2 : Byte) (s : State) : Result := readForm params .aby 3 4 ldaEffect o1 o2 s

/-- `LDA ($nn,X)`, mode IZX, length 2, cycles 6 (R197). -/
def execLdaIzx (o1 : Byte) (s : State) : Result := readForm params .izx 2 6 ldaEffect o1 0 s

/-- `LDA ($nn),Y`, mode IZY, length 2, cycles 5 (R198). -/
def execLdaIzy (o1 : Byte) (s : State) : Result := readForm params .izy 2 5 ldaEffect o1 0 s

end Sys2Proof.Machine
end

