-- ==== Sys2Proof/Machine/Dispatch.lean ====
section
/-! DEFINITION. The meaning of every instruction, one arm per row of spec/opcode_table.json. -/

namespace Sys2Proof.Machine

def exec (i : Instr) (s : State) : Host.Outcome State Fault Refusal :=
  match i with
  | .adcImm o1 => Sys2Proof.Machine.execAdcImm o1 s
  | .adcZp o1 => Sys2Proof.Machine.execAdcZp o1 s
  | .adcZpx o1 => Sys2Proof.Machine.execAdcZpx o1 s
  | .adcAbs o1 o2 => Sys2Proof.Machine.execAdcAbs o1 o2 s
  | .adcAbx o1 o2 => Sys2Proof.Machine.execAdcAbx o1 o2 s
  | .adcAby o1 o2 => Sys2Proof.Machine.execAdcAby o1 o2 s
  | .adcIzx o1 => Sys2Proof.Machine.execAdcIzx o1 s
  | .adcIzy o1 => Sys2Proof.Machine.execAdcIzy o1 s
  | .andImm o1 => Sys2Proof.Machine.execAndImm o1 s
  | .andZp o1 => Sys2Proof.Machine.execAndZp o1 s
  | .andZpx o1 => Sys2Proof.Machine.execAndZpx o1 s
  | .andAbs o1 o2 => Sys2Proof.Machine.execAndAbs o1 o2 s
  | .andAbx o1 o2 => Sys2Proof.Machine.execAndAbx o1 o2 s
  | .andAby o1 o2 => Sys2Proof.Machine.execAndAby o1 o2 s
  | .andIzx o1 => Sys2Proof.Machine.execAndIzx o1 s
  | .andIzy o1 => Sys2Proof.Machine.execAndIzy o1 s
  | .ldaImm o1 => Sys2Proof.Machine.execLdaImm o1 s
  | .ldaZp o1 => Sys2Proof.Machine.execLdaZp o1 s
  | .ldaZpx o1 => Sys2Proof.Machine.execLdaZpx o1 s
  | .ldaAbs o1 o2 => Sys2Proof.Machine.execLdaAbs o1 o2 s
  | .ldaAbx o1 o2 => Sys2Proof.Machine.execLdaAbx o1 o2 s
  | .ldaAby o1 o2 => Sys2Proof.Machine.execLdaAby o1 o2 s
  | .ldaIzx o1 => Sys2Proof.Machine.execLdaIzx o1 s
  | .ldaIzy o1 => Sys2Proof.Machine.execLdaIzy o1 s
  | .aslAcc => Sys2Proof.Machine.execAslAcc s
  | .aslZp o1 => Sys2Proof.Machine.execAslZp o1 s
  | .aslZpx o1 => Sys2Proof.Machine.execAslZpx o1 s
  | .aslAbs o1 o2 => Sys2Proof.Machine.execAslAbs o1 o2 s
  | .aslAbx o1 o2 => Sys2Proof.Machine.execAslAbx o1 o2 s

end Sys2Proof.Machine
end

