-- ==== Sys2Proof/Machine/Step.lean ====
section
/-! DEFINITION. One `step()` (spec/41_core_step.md R132, R142) and placing an instruction where it is fetched. -/

namespace Sys2Proof.Machine

/-- `step()` (R132): in Reset and Running fetch, decode and execute one instruction (Reset steps like Running, R130, D23;
log 11); an opcode with no entry is the fault of R231; in Halted there is no step (R142). -/
def step (s : State) : Host.Outcome State Fault Refusal :=
  match s.phase with
  | .halted => .fault .halted
  | .reset | .running =>
    match fetchDecode s with
    | .error _ => raiseUndecoded s
    | .ok (i, _) => exec i s

/-- `s` with an instruction word, its bits numbered as the opcode table numbers them, stored at PC, so that `step` fetches
it there. It stands for the host's `load` of R266 (log 13). -/
def State.withFetchWord (s : State) (nbits w : Nat) : State := placeAtPc s (tableBytes nbits w)

end Sys2Proof.Machine
end

