-- ==== Sys2Proof/Machine/TableStep.lean ====
section
/-! DEFINITION. The step as spec/41_core_step.md R132 writes it, driven by the opcode table of ANY configuration
(spec/30_encoding.md R94: instruction and mode are independent fields; spec/92_eei_decisions.md D1, D21), and the output a
step returns to its caller (spec/00_scope.md R14, spec/41_core_step.md R138). With this hardware's `params` it is `step`;
under other tables it also runs the modes ZPY, IMP, REL and IND. -/

namespace Sys2Proof.Machine

/-- `Execute(instr, mode, m, ea)` with the resolution before it and the advance after it (R132, R135). -/
def executeEntry (cfg : Config) (e : Entry) (o1 o2 : Byte) (s : State) : Result :=
  match e.op with
  | .adc => readForm cfg e.mode e.length e.cycles adcEffect o1 o2 s
  | .and => readForm cfg e.mode e.length e.cycles andEffect o1 o2 s
  | .lda => readForm cfg e.mode e.length e.cycles ldaEffect o1 o2 s
  | .asl =>
    if e.mode = .acc then readForm cfg e.mode e.length e.cycles aslAccEffect o1 o2 s
    else aslMemoryForm cfg e.mode e.length e.cycles o1 o2 s

/-- `step()` of R132 under a configuration. -/
def stepWith (cfg : Config) (s : State) : Result :=
  match s.phase with
  | .halted => .fault .halted
  | .reset | .running =>
    match lookupEntry cfg.opcodeTable (fetchByte cfg s 0) with
    | none => raiseOpcode s (fetchByte cfg s 0)
    | some e => executeEntry cfg e (fetchByte cfg s 1) (fetchByte cfg s 2) s

/-- What `step()` returns to its caller (R14, R138): `ok(cycles)`, `fault(record)`, or nothing in Halted (R142). -/
inductive StepOutput where
  | ok (cycles : Nat)
  | fault (record : FaultRecord)
  | none
deriving DecidableEq, Repr

/-- The output of a step under a configuration. -/
def stepOutputWith (cfg : Config) (s : State) : StepOutput :=
  match s.phase with
  | .halted => .none
  | .reset | .running =>
    match lookupEntry cfg.opcodeTable (fetchByte cfg s 0) with
    | .none => .fault (.unsupportedOpcode (fetchByte cfg s 0) s.pc)
    | some e =>
      match resolve cfg e.mode (fetchByte cfg s 1) (fetchByte cfg s 2) s with
      | .error a => .fault (.addressOutOfRange a s.pc)
      | .ok _ => .ok e.cycles

/-- The output of a step of this hardware. -/
def stepOutput (s : State) : StepOutput := stepOutputWith params s

/-- The cycle count a step reports: the entry's, 0 for a faulting step (R138, D19). -/
def reportedCycles : StepOutput → Nat
  | .ok c => c
  | .fault _ => 0
  | .none => 0

/-- The cycle counts of the default table, by mode, "with no dynamic adjustment" (70_reset_and_hazards.md R276; 0 where R276
has no row). -/
def cyclesOf : Op → Mode → Nat
  | .asl, .acc => 2
  | .asl, .zp => 5
  | .asl, .zpx => 6
  | .asl, .abs => 6
  | .asl, .abx => 7
  | _, .imm => 2
  | _, .zp => 3
  | _, .zpx => 4
  | _, .abs => 4
  | _, .abx => 4
  | _, .aby => 4
  | _, .izx => 6
  | _, .izy => 5
  | _, _ => 0

end Sys2Proof.Machine
end

