-- ==== Sys2Proof/Machine/Accesses.lean ====
section
/-! DEFINITION. The memory accesses of a step in the order of spec/20_memory.md R67 (decision D16; log 18). -/

namespace Sys2Proof.Machine

/-- The addresses a mode reads, in order: operand bytes, pointer low, pointer high, operand; each once (R67). The list
goes on past an address that is out of range, where the step stops. -/
def resolveReads (cfg : Config) (mode : Mode) (o1 o2 : Byte) (s : State) : List Int :=
  let p1 := operandAddr cfg s 1
  let p2 := operandAddr cfg s 2
  let w := (mkWord o1 o2).toNat
  let zx := (o1.toNat + s.x.toNat) % 256
  let zy := (o1.toNat + s.y.toNat) % 256
  match mode with
  | .acc => []
  | .imm => [p1]
  | .abs => [p1, p2, (w : Int)]
  | .zp => [p1, (o1.toNat : Int)]
  | .zpx => [p1, (zx : Int)]
  | .zpy => [p1, (zy : Int)]
  | .abx => [p1, p2, sumAddr cfg (w + s.x.toNat : Nat)]
  | .aby => [p1, p2, sumAddr cfg (w + s.y.toNat : Nat)]
  | .imp => []
  | .rel => [p1, sumAddr cfg ((s.pc.toNat + 2 : Nat) + sext8 o1)]
  | .izx => [p1, (zx : Int), ((zx + 1) % 256 : Nat), (mkWord (s.mem.read zx) (s.mem.read ((zx + 1) % 256))).toNat]
  | .izy => [p1, (o1.toNat : Int), ((o1.toNat + 1) % 256 : Nat),
      sumAddr cfg ((mkWord (s.mem.read o1.toNat) (s.mem.read ((o1.toNat + 1) % 256))).toNat + s.y.toNat : Nat)]
  | .ind => [p1, p2, (w : Int), ((w + 1) % 65536 : Nat),
      (mkWord (s.mem.read w) (s.mem.read ((w + 1) % 65536))).toNat]

/-- One access of a step. -/
inductive Access where
  | read (addr : Int)
  | write (addr : Int)
deriving DecidableEq, Repr

/-- The accesses a step presents to memory, in the order of R67: the opcode, the mode's reads up to and including the
first that is out of range, and the write of memory-mode ASL. -/
def stepAccesses (cfg : Config) (s : State) : List Access :=
  match lookupEntry cfg.opcodeTable (fetchByte cfg s 0) with
  | none => [.read s.pc.toNat]
  | some e =>
    let reads := resolveReads cfg e.mode (fetchByte cfg s 1) (fetchByte cfg s 2) s
    match reads.find? (fun a => !inRange a) with
    | some bad => .read s.pc.toNat :: (reads.takeWhile inRange ++ [bad]).map Access.read
    | none =>
      let writes : List Access :=
        match e.op, resolveAtPc cfg e.mode s with
        | .asl, .ok ⟨m, some ea⟩ => [.write (aslTarget cfg m ea)]
        | _, _ => []
      .read s.pc.toNat :: (reads.map Access.read ++ writes)

end Sys2Proof.Machine
end

