-- ==== Sys2Proof/Machine/Events.lean ====
section
/-! DEFINITION. The events and host actions around the core: power-on, reset, load, clear, inspect
(spec/41_core_step.md R131; spec/70_reset_and_hazards.md R260 to R267; spec/10_state.md R43; spec/20_memory.md R61, R69). -/

namespace Sys2Proof.Machine

/-- What `power_on` and `reset()` have in common (R261, R263): registers and flags to their power-on defaults, PC from the
reset vector as memory is now, CYC zero, phase Reset. Memory and FAULT are left alone. -/
def initialise (cfg : Config) (s : State) : State :=
  { s with
    a := cfg.axyPowerOn, x := cfg.axyPowerOn, y := cfg.axyPowerOn, sp := cfg.spReset
    flagC := false, flagZ := false, flagI := false, flagD := false, flagB := false, flagV := false, flagN := false
    pc := pcAtReset cfg s.mem.read, cyc := 0, phase := .reset }

/-- `power_on` (R261), from any state (R131): memory zeroed, FAULT None, then as above. -/
def powerOn (cfg : Config) (s : State) : State := initialise cfg { s with mem := [], fault := none }

/-- `reset()`: with FAULT None as R263 says; with a fault it changes nothing (R264, D10). -/
def hostReset (cfg : Config) (s : State) : State :=
  match s.fault with
  | none => initialise cfg s
  | some _ => s

/-- `load(a, bytes)` (R266; log 10): in phase Reset the bytes are written and nothing else changes; outside it, or past
0xFFFF, it is refused whole. -/
def hostLoad (s : State) (a : Nat) (bytes : List Byte) : Result :=
  if s.phase = .reset then
    if a + bytes.length ≤ 65536 then .next (s.setMem (s.mem.writeBytes a bytes)) else .refused .loadPastTop
  else .refused .loadOutsideReset

/-- `clear()` (R61): "resets every cell to zero", permitted where `load` is. -/
def hostClear (s : State) : Result :=
  if s.phase = .reset then .next (s.setMem []) else .refused .loadOutsideReset

/-- A cell read by the host, between any events (R69, D17). -/
def hostRead (s : State) (a : Nat) : Option Byte := if a < 65536 then some (s.mem.read a) else none

/-- The read-only view of R43. -/
structure View where
  a : Byte
  x : Byte
  y : Byte
  sp : Byte
  pc : Word
  flagC : Bool
  flagZ : Bool
  flagI : Bool
  flagD : Bool
  flagB : Bool
  flagV : Bool
  flagN : Bool
  phase : Phase
  fault : Option FaultRecord
  cyc : Nat
deriving DecidableEq, Repr

/-- `inspect` (R43): every register and flag and the decided state; reading changes nothing. -/
def inspect (s : State) : View :=
  ⟨s.a, s.x, s.y, s.sp, s.pc, s.flagC, s.flagZ, s.flagI, s.flagD, s.flagB, s.flagV, s.flagN, s.phase, s.fault, s.cyc⟩

/-- The three events that drive the state machine (R13, R131) and the two host actions that write memory (R61, R266). -/
inductive Event where
  | powerOn
  | reset
  | step
  | load (a : Nat) (bytes : List Byte)
  | clear
deriving DecidableEq, Repr

/-- What an event does to a state of this hardware (R131). -/
def event (e : Event) (s : State) : Result :=
  match e with
  | .powerOn => .next (powerOn params s)
  | .reset => .next (hostReset params s)
  | .step => step s
  | .load a bytes => hostLoad s a bytes
  | .clear => hostClear s

end Sys2Proof.Machine
end

