-- ==== Sys2Proof/Safety.lean ====
section
/-! DEFINITION. What holds of every legal state and what counts as a safe run, in the terms statements use
(spec/10_state.md R38, R42, R44; spec/41_core_step.md R142). -/

namespace Sys2Proof.Machine

/-- The invariant of a machine with a configuration: memory is in its canonical form, every listed cell being at an
address 0..65535 (R44, R50), "`phase` = Halted if and only if `FAULT` is not None" (R38), and CYC fits its width (R39). -/
structure InvUnder (cfg : Config) (s : State) : Prop where
  mem_wf : s.mem.wf = true
  halted_iff : s.phase = .halted ↔ s.fault ≠ none
  cyc_lt : s.cyc < 2 ^ cfg.cycWidth

/-- The invariant of this hardware. -/
abbrev Inv (s : State) : Prop := InvUnder params s

/-- What R42 says of every state reached from power-on: X = 0x00, Y = 0x00, SP = 0xFD, I = D = B = 0. -/
structure AtPowerOnValues (s : State) : Prop where
  x_eq : s.x = 0x00
  y_eq : s.y = 0x00
  sp_eq : s.sp = 0xFD
  i_eq : s.flagI = false
  d_eq : s.flagD = false
  b_eq : s.flagB = false

/-- The states reached from `power_on` by events (R42). -/
inductive Reachable : State → Prop where
  | powerOn : Reachable State.reset
  | event (e : Event) {s t : State} : Reachable s → event e s = .next t → Reachable t

/-- `n` steps complete with no fault taken: a Halted state is never final and never successful (R142, R242). -/
def SafeRun : Nat → State → Prop
  | 0, s => s.phase ≠ .halted
  | n + 1, s => s.phase ≠ .halted ∧ ∃ t, step s = .next t ∧ SafeRun n t

/-! The terms of the statements: the operand and the address of a mode as the table of 40_addressing_modes.md R118 writes
them, not through the resolver. -/

/-- The `ea` column of R118; none for ACC and IMP. -/
def specAddress (mode : Mode) (o1 o2 : Byte) (s : State) : Option Int :=
  let cell (a : Nat) : Nat := (s.mem.read a).toNat
  let p := o1.toNat + 256 * o2.toNat
  match mode with
  | .acc => none
  | .imp => none
  | .imm => some (s.pc.toNat + 1)
  | .zp => some o1.toNat
  | .zpx => some ((o1.toNat + s.x.toNat) % 256)
  | .zpy => some ((o1.toNat + s.y.toNat) % 256)
  | .abs => some p
  | .abx => some (p + s.x.toNat)
  | .aby => some (p + s.y.toNat)
  | .rel => some (s.pc.toNat + 2 + if o1.toNat < 128 then (o1.toNat : Int) else o1.toNat - 256)
  | .izx => some (cell ((o1.toNat + s.x.toNat) % 256) + 256 * cell ((o1.toNat + s.x.toNat + 1) % 256))
  | .izy => some (cell o1.toNat + 256 * cell ((o1.toNat + 1) % 256) + s.y.toNat)
  | .ind => some (cell p + 256 * cell ((p + 1) % 65536))

/-- The `m` column of R118. The operand of Immediate is the operand byte of the instruction itself. -/
def specOperand (mode : Mode) (o1 o2 : Byte) (s : State) : Byte :=
  match mode, specAddress mode o1 o2 s with
  | .acc, _ => s.a
  | .imm, _ => o1
  | _, some ea => s.mem.read ea.toNat
  | _, none => 0x00

/-- No address the instruction's mode forms is outside 0..65535 (R118: "fault if ea > 65535", "also faults above 65535"): its
operand bytes exist and its effective address, if it has one, exists. -/
def Fits (i : Instr) (s : State) : Prop :=
  s.pc.toNat + i.mode.operandCount ≤ 65535 ∧
    ∀ ea, specAddress i.mode i.o1 i.o2 s = some ea → 0 ≤ ea ∧ ea ≤ 65535

end Sys2Proof.Machine
end

