-- ==== Sys2Proof/Certificates/Slice0/Obligations.lean ====
section
/-! DEFINITION. The statements for the provers. Each docstring names the rule of spec/ it formalises; where a statement
rests on a decision or an inference the spec marks as its own, or on a log entry, the docstring says so. -/

open Sys2Proof Sys2Proof.Machine

/-! ## Encoding -/

/-- Decode and encode agree for all 29 instructions, with every value of every operand byte and whatever follows
(30_encoding.md R80, R86, R91). The opcode bytes are the spec's decision D1 (log 1). -/
def Obligations.DecodeOfEncodeIsTheInstruction : Prop :=
  ∀ (i : Instr) (rest : List Byte), i.wf = true → decode (encode i ++ rest) = .ok (i, rest)

/-- The other direction: bytes that decode are the encoding of what they decode to, so no two encodings of one instruction
exist and no byte is skipped (30_encoding.md R80, R82, R85; decision D1, log 1). -/
def Obligations.DecodedBytesAreTheEncoding : Prop :=
  ∀ (bytes rest : List Byte) (i : Instr), decode bytes = .ok (i, rest) → bytes = encode i ++ rest

/-- The 29 opcode bytes that 30_encoding.md R90 lists. -/
def Sys2Proof.supportedOpcodes : List Byte :=
  [0x06, 0x0A, 0x0E, 0x16, 0x1E, 0x21, 0x25, 0x29, 0x2D, 0x31, 0x35, 0x39, 0x3D] ++
  [0x61, 0x65, 0x69, 0x6D, 0x71, 0x75, 0x79, 0x7D, 0xA1, 0xA5, 0xA9, 0xAD, 0xB1, 0xB5, 0xB9, 0xBD]

/-- Exactly the 227 bytes outside R90's list are unsupported, whatever follows them (30_encoding.md R90; decision D1,
log 1). -/
def Obligations.UnsupportedOpcodesAreThoseNotListed : Prop :=
  ∀ (b : Byte) (rest : List Byte), decode (b :: rest) = .error (.unsupportedOpcode b) ↔ b ∉ supportedOpcodes

/-- The example words of 30_encoding.md R92 decode to the instructions they stand for (general knowledge, decisions D1 and
D18, log 1). -/
def Obligations.SampleWordsDecode : Prop :=
  decode [0x0A] = .ok (.aslAcc, []) ∧ decode [0xA9, 0x7F] = .ok (.ldaImm 0x7F, []) ∧
  decode [0x65, 0x10] = .ok (.adcZp 0x10, []) ∧ decode [0x35, 0xF8] = .ok (.andZpx 0xF8, []) ∧
  decode [0xAD, 0xCD, 0xAB] = .ok (.ldaAbs 0xCD 0xAB, []) ∧ decode [0x1E, 0xFF, 0x2F] = .ok (.aslAbx 0xFF 0x2F, []) ∧
  decode [0x79, 0xF8, 0x20] = .ok (.adcAby 0xF8 0x20, []) ∧ decode [0xA1, 0x00] = .ok (.ldaIzx 0x00, []) ∧
  decode [0xB1, 0x10] = .ok (.ldaIzy 0x10, [])

/-! ## Reset and the host's events -/

/-- `power_on` from any state gives the reset state, and what that is (70_reset_and_hazards.md R261, 10_state.md R41).
SP, the flags and the zeroed memory are the source's; A, X, Y (D5, log 5), PC (D4, log 4), FAULT (D10, log 6) and CYC (D14,
log 7) are the spec's decisions. -/
def Obligations.PowerOnGivesTheResetState : Prop :=
  ∀ s : State, powerOn params s = State.reset ∧
    State.reset.a = 0x00 ∧ State.reset.x = 0x00 ∧ State.reset.y = 0x00 ∧ State.reset.sp = 0xFD ∧
    State.reset.pc = 0x0000 ∧
    State.reset.flagC = false ∧ State.reset.flagZ = false ∧ State.reset.flagI = false ∧ State.reset.flagD = false ∧
    State.reset.flagB = false ∧ State.reset.flagV = false ∧ State.reset.flagN = false ∧
    (∀ a, State.reset.mem.read a = 0x00) ∧
    State.reset.phase = .reset ∧ State.reset.fault = none ∧ State.reset.cyc = 0

/-- `reset()` with FAULT None: A, X, Y zero, SP 0xFD, flags cleared, PC the little-endian word at 0xFFFC as memory is now,
memory and FAULT untouched, CYC zero, phase Reset (70_reset_and_hazards.md R263; decisions D4, D6, D14, logs 4, 5, 7). -/
def Obligations.ResetLeavesThePowerOnRegisters : Prop :=
  ∀ s : State, s.fault = none →
    (hostReset params s).a = 0x00 ∧ (hostReset params s).x = 0x00 ∧ (hostReset params s).y = 0x00 ∧
    (hostReset params s).sp = 0xFD ∧
    (hostReset params s).flagC = false ∧ (hostReset params s).flagZ = false ∧ (hostReset params s).flagI = false ∧
    (hostReset params s).flagD = false ∧ (hostReset params s).flagB = false ∧ (hostReset params s).flagV = false ∧
    (hostReset params s).flagN = false ∧
    (hostReset params s).pc.toNat = (s.mem.read 0xFFFC).toNat + 256 * (s.mem.read 0xFFFD).toNat ∧
    (hostReset params s).mem = s.mem ∧ (hostReset params s).fault = none ∧ (hostReset params s).cyc = 0 ∧
    (hostReset params s).phase = .reset

/-- "invoking `reset()` twice in a row yields identical register/flag state both times, independent of prior execution
history" (70_reset_and_hazards.md R265): a second `reset()` changes nothing, and two cores with no fault that hold the same
two vector bytes show the host the same registers, flags, phase, FAULT and CYC after it. That second clause is what R265
marks as derived from R263, and it rests on the reset values of PC (D4, log 4), A, X, Y (D6, log 5) and CYC (D14, log 7);
that `reset()` with a fault changes nothing is decision D10 (log 6). -/
def Obligations.ResetIsIdempotentAndHistoryFree : Prop :=
  (∀ s : State, hostReset params (hostReset params s) = hostReset params s) ∧
  (∀ s t : State, s.fault = none → t.fault = none →
    s.mem.read 0xFFFC = t.mem.read 0xFFFC → s.mem.read 0xFFFD = t.mem.read 0xFFFD →
    inspect (hostReset params s) = inspect (hostReset params t))

/-- In Halted there is no step, and `reset()`, `load` and `clear` change nothing (41_core_step.md R142,
70_reset_and_hazards.md R264, 20_memory.md R69; decisions D10, D17, logs 6, 10). -/
def Obligations.HaltedIsLeftOnlyByPowerOn : Prop :=
  ∀ s t : State, Inv s → s.phase = .halted →
    (∀ e, event e s = .next t → e = .powerOn ∨ t = s) ∧ step s = .fault .halted

/-- `load(a, bytes)` (70_reset_and_hazards.md R266; decision D17, log 10): in phase Reset and inside memory it puts byte i of
the list at a + i, changes no other cell and nothing else; otherwise it is refused, so nothing is written. -/
def Obligations.LoadWritesItsBytesAndNothingElse : Prop :=
  ∀ (s : State) (a : Nat) (bytes : List Byte), Inv s →
    (s.phase = .reset → a + bytes.length ≤ 65536 →
      ∃ t, hostLoad s a bytes = .next t ∧
        (∀ k, k < bytes.length → t.mem.read (a + k) = bytes.getD k 0) ∧
        (∀ b, b < a ∨ a + bytes.length ≤ b → t.mem.read b = s.mem.read b) ∧
        inspect t = inspect s) ∧
    (s.phase ≠ .reset → hostLoad s a bytes = .refused .loadOutsideReset) ∧
    (s.phase = .reset → 65536 < a + bytes.length → hostLoad s a bytes = .refused .loadPastTop)

/-- `clear()` (20_memory.md R61; decision D17, log 10): in phase Reset every cell reads 0x00 after it and the host sees the
same registers; outside phase Reset it is refused, so nothing is written. -/
def Obligations.ClearZeroesEveryCellAndNothingElse : Prop :=
  ∀ s : State,
    (s.phase = .reset → ∃ t, hostClear s = .next t ∧ (∀ a, t.mem.read a = 0x00) ∧ inspect t = inspect s) ∧
    (s.phase ≠ .reset → hostClear s = .refused .loadOutsideReset)

/-! ## Invariants and whole-machine rules -/

/-- The reset state meets the machine invariant (10_state.md R38, R39, R44). -/
def Obligations.InvariantHoldsAtReset : Prop := Inv State.reset

/-- Every step keeps the invariant: memory canonical with every listed cell at an address 0..65535, Halted exactly when
FAULT holds a record, CYC below 2^64 (10_state.md R38, R39, R44; decisions D9, D10, D14, logs 6, 7, 14). -/
def Obligations.StepKeepsTheInvariant : Prop :=
  ∀ s t : State, Inv s → step s = .next t → Inv t

/-- Every host event other than a step keeps the invariant, `power_on` from any state at all (41_core_step.md R131;
20_memory.md R61, R69; decisions D10, D17, logs 6, 10). -/
def Obligations.HostEventsKeepTheInvariant : Prop :=
  ∀ (e : Event) (s t : State), e ≠ .step → (Inv s ∨ e = .powerOn) → event e s = .next t → Inv t

/-- Under ANY configuration with a legal opcode table (of the four instructions and thirteen modes; either value of
ADDR_OVERFLOW and of ASL_WRITEBACK, any CYC_WIDTH) a core that is not Halted takes a step, is never refused, and keeps the
invariant (30_encoding.md R94; decisions D1, D7, D8, D14, D21, logs 1, 2, 3, 7, 16). -/
def Obligations.TableStepAlwaysAnswersAndKeepsTheInvariant : Prop :=
  ∀ (cfg : Config) (s : State), tableWf cfg.opcodeTable = true → s.phase ≠ .halted → InvUnder cfg s →
    ∃ t, stepWith cfg s = .next t ∧ InvUnder cfg t

/-- The values of 10_state.md R42, which the spec derives, are an invariant: they and the machine invariant hold at
`State.reset`, and every event (a step, `power_on`, `reset()`, a load, a clear) keeps the two together. The zeros of X and Y
are decision D5 (log 5). -/
def Obligations.EveryEventKeepsThePowerOnValues : Prop :=
  (Inv State.reset ∧ AtPowerOnValues State.reset) ∧
  ∀ (e : Event) (s t : State), Inv s → AtPowerOnValues s → event e s = .next t → Inv t ∧ AtPowerOnValues t

/-- Every state reached from `power_on` by any events has X = 0x00, Y = 0x00, SP = 0xFD, I = D = B = 0, and meets the
invariant (10_state.md R42, which the spec derives; the zeros of X and Y are decision D5, log 5). -/
def Obligations.ReachableStatesHaveThePowerOnValues : Prop :=
  ∀ s : State, Reachable s → Inv s ∧ AtPowerOnValues s

/-- What a step never changes (41_core_step.md R144, which the spec derives): X, Y, SP, I, D, B; memory, unless the opcode is
a memory-mode ASL, and then at most the one cell of the effective address; A, unless the opcode is one of the others. That the
memory-mode ASL opcodes are 0x06, 0x16, 0x0E, 0x1E is decision D1 (30_encoding.md section 3, log 1). -/
def Obligations.StepNeverChanges : Prop :=
  ∀ s t : State, step s = .next t →
    t.x = s.x ∧ t.y = s.y ∧ t.sp = s.sp ∧ t.flagI = s.flagI ∧ t.flagD = s.flagD ∧ t.flagB = s.flagB ∧
    (s.mem.read s.pc.toNat ∉ [0x06, 0x16, 0x0E, 0x1E] → t.mem = s.mem) ∧
    (∀ i rest, fetchDecode s = .ok (i, rest) → i.op = .asl → i.mode ≠ .acc →
      t.a = s.a ∧ ∀ (ea : Int) (b : Nat), specAddress i.mode i.o1 i.o2 s = some ea → (b : Int) ≠ ea →
        t.mem.read b = s.mem.read b)

/-- SP, I, D and B are inert (10_state.md R30 for the flags, R24 for SP): no step reads or writes them, so a step from a
state with other values of them is the same step with those other values; `power_on`, and `reset()` when FAULT is None, clear
the flags and set SP to 0xFD; no other event changes them. That `reset()` with a fault changes nothing is decision D10
(log 6); HaltedIsLeftOnlyByPowerOn says it. -/
def Obligations.StackPointerAndIDBFlagsAreInert : Prop :=
  (∀ (s t : State) (sp : Byte) (i d b : Bool), step s = .next t →
    t.sp = s.sp ∧ t.flagI = s.flagI ∧ t.flagD = s.flagD ∧ t.flagB = s.flagB ∧
    step { s with sp := sp, flagI := i, flagD := d, flagB := b } =
      .next { t with sp := sp, flagI := i, flagD := d, flagB := b }) ∧
  (∀ (s t : State) (e : Event), e = .powerOn ∨ (e = .reset ∧ s.fault = none) → event e s = .next t →
    t.sp = 0xFD ∧ t.flagI = false ∧ t.flagD = false ∧ t.flagB = false) ∧
  (∀ (s t : State) (e : Event), e ≠ .powerOn → e ≠ .reset → event e s = .next t →
    t.sp = s.sp ∧ t.flagI = s.flagI ∧ t.flagD = s.flagD ∧ t.flagB = s.flagB)

/-- Z, V and N are read by no instruction, and C by ADC alone (10_state.md section 4). A step from a state with other values
z, v, n of the three ends in the same state but for those flags; where it completes, the new Z and N are the same and the
new V is the same under ADC and is v otherwise; where it faults, they are z, v, n. Unless the instruction is an ADC, the
same holds of another value c of C: the new C is the same under ASL, and is c otherwise. -/
def Obligations.FlagsOtherThanAdcsCarryAreNotRead : Prop :=
  ∀ (s t : State) (c z v n : Bool), step s = .next t →
    (∃ t', step { s with flagZ := z, flagV := v, flagN := n } = .next t' ∧
      { t' with flagZ := t.flagZ, flagV := t.flagV, flagN := t.flagN } = t ∧
      (t.phase = .running → t'.flagZ = t.flagZ ∧ t'.flagN = t.flagN ∧
        ∀ i rest, fetchDecode s = .ok (i, rest) → t'.flagV = if i.op = .adc then t.flagV else v) ∧
      (t.phase = .halted → t'.flagZ = z ∧ t'.flagV = v ∧ t'.flagN = n)) ∧
    ((∀ i rest, fetchDecode s = .ok (i, rest) → i.op ≠ .adc) →
      ∃ t', step { s with flagC := c } = .next t' ∧
        { t' with flagC := t.flagC } = t ∧
        (t.phase = .running →
          ∀ i rest, fetchDecode s = .ok (i, rest) → t'.flagC = if i.op = .asl then t.flagC else c) ∧
        (t.phase = .halted → t'.flagC = c))

/-! ## Memory -/

/-- The write contract (20_memory.md R52): in range, the cell becomes `v mod 256`, "a write to address a changes `mem[a]` and
nothing else", and a later read of any address gives the latest write or what was there; out of range, AddressOutOfRange
and no cell changes. -/
def Obligations.WriteChangesItsCellAlone : Prop :=
  ∀ (s : State) (a v : Int), s.mem.wf = true →
    (0 ≤ a ∧ a ≤ 65535 → ∃ t, memWrite s a v = .ok t ∧
      ((t.mem.read a.toNat).toNat : Int) = v % 256 ∧
      (∀ b : Nat, (b : Int) ≠ a → t.mem.read b = s.mem.read b) ∧
      memRead t a = .ok (BitVec.ofInt 8 v) ∧
      { t with mem := s.mem } = s) ∧
    (¬ (0 ≤ a ∧ a ≤ 65535) → memWrite s a v = .error a)

/-- Canonical memories that read alike at every address are the same data: the list of cells says no more than the array of
20_memory.md R50 does (log 14). -/
def Obligations.MemoriesThatReadAlikeAreEqual : Prop :=
  ∀ m m' : Memory, m.wf = true → m'.wf = true → (∀ a, a < 65536 → m.read a = m'.read a) → m = m'

/-- A store is seen by every later fetch with nothing further to do (20_memory.md R65, which the spec derives): after a
memory-mode ASL, an opcode or operand byte that the next step fetches at the address stored to is the shifted byte. -/
def Obligations.FetchSeesTheStoredByte : Prop :=
  ∀ (i : Instr) (s t : State) (ea k : Nat), s.mem.wf = true → i.op = .asl → i.mode ≠ .acc → Fits i s →
    specAddress i.mode i.o1 i.o2 s = some (ea : Int) → exec i s = .next t → t.pc.toNat + k = ea →
    (fetchByte params t k).toNat = 2 * (s.mem.read ea).toNat % 256

/-! ## The addressing-mode resolver -/

/-- Accumulator, Immediate, Zero-Page, Absolute and Implied, each equal to its pseudocode over `MemRead`
(40_addressing_modes.md R102, R103, R104, R107, R114). -/
def Obligations.DirectModesFollowTheirRules : Prop :=
  ∀ s : State,
    resolveAtPc params .acc s = .ok ⟨s.a, none⟩ ∧
    resolveAtPc params .imm s = (do
      let m ← memRead s (s.pc.toNat + 1)
      .ok ⟨m, some (s.pc.toNat + 1)⟩) ∧
    resolveAtPc params .zp s = (do
      let o1 ← memRead s (s.pc.toNat + 1)
      let m ← memRead s o1.toNat
      .ok ⟨m, some o1.toNat⟩) ∧
    resolveAtPc params .abs s = (do
      let o1 ← memRead s (s.pc.toNat + 1)
      let o2 ← memRead s (s.pc.toNat + 2)
      let m ← memRead s (o1.toNat + 256 * o2.toNat)
      .ok ⟨m, some (o1.toNat + 256 * o2.toNat)⟩) ∧
    resolveAtPc params .imp s = .ok ⟨0x00, none⟩

/-- Zero-Page,X, Zero-Page,Y, Absolute,X and Absolute,Y, each equal to its pseudocode (40_addressing_modes.md R105, R106,
R108, R109): the zero-page sum wraps mod 256, the absolute sum is not reduced. -/
def Obligations.IndexedModesFollowTheirRules : Prop :=
  ∀ s : State,
    resolveAtPc params .zpx s = (do
      let o1 ← memRead s (s.pc.toNat + 1)
      let m ← memRead s ((o1.toNat + s.x.toNat) % 256)
      .ok ⟨m, some ((o1.toNat + s.x.toNat) % 256)⟩) ∧
    resolveAtPc params .zpy s = (do
      let o1 ← memRead s (s.pc.toNat + 1)
      let m ← memRead s ((o1.toNat + s.y.toNat) % 256)
      .ok ⟨m, some ((o1.toNat + s.y.toNat) % 256)⟩) ∧
    resolveAtPc params .abx s = (do
      let o1 ← memRead s (s.pc.toNat + 1)
      let o2 ← memRead s (s.pc.toNat + 2)
      let m ← memRead s (o1.toNat + 256 * o2.toNat + s.x.toNat)
      .ok ⟨m, some (o1.toNat + 256 * o2.toNat + s.x.toNat)⟩) ∧
    resolveAtPc params .aby s = (do
      let o1 ← memRead s (s.pc.toNat + 1)
      let o2 ← memRead s (s.pc.toNat + 2)
      let m ← memRead s (o1.toNat + 256 * o2.toNat + s.y.toNat)
      .ok ⟨m, some (o1.toNat + 256 * o2.toNat + s.y.toNat)⟩)

/-- Relative, Indirect,X, Indirect,Y and Absolute-Indirect, each equal to its pseudocode (40_addressing_modes.md R110, R111,
R112, R113): signed offset, pointers wrapping in page zero, the Absolute-Indirect pointer wrapping at 0xFFFF alone. -/
def Obligations.IndirectAndRelativeModesFollowTheirRules : Prop :=
  ∀ s : State,
    resolveAtPc params .rel s = (do
      let o1 ← memRead s (s.pc.toNat + 1)
      let ea : Int := s.pc.toNat + 2 + (if o1.toNat < 128 then (o1.toNat : Int) else o1.toNat - 256)
      let m ← memRead s ea
      .ok ⟨m, some ea⟩) ∧
    resolveAtPc params .izx s = (do
      let o1 ← memRead s (s.pc.toNat + 1)
      let z : Int := (o1.toNat + s.x.toNat) % 256
      let lo ← memRead s z
      let hi ← memRead s ((z + 1) % 256)
      let m ← memRead s (lo.toNat + 256 * hi.toNat)
      .ok ⟨m, some (lo.toNat + 256 * hi.toNat)⟩) ∧
    resolveAtPc params .izy s = (do
      let o1 ← memRead s (s.pc.toNat + 1)
      let lo ← memRead s o1.toNat
      let hi ← memRead s ((o1.toNat + 1) % 256)
      let m ← memRead s (lo.toNat + 256 * hi.toNat + s.y.toNat)
      .ok ⟨m, some (lo.toNat + 256 * hi.toNat + s.y.toNat)⟩) ∧
    resolveAtPc params .ind s = (do
      let o1 ← memRead s (s.pc.toNat + 1)
      let o2 ← memRead s (s.pc.toNat + 2)
      let ptr : Int := o1.toNat + 256 * o2.toNat
      let lo ← memRead s ptr
      let hi ← memRead s ((ptr + 1) % 65536)
      let m ← memRead s (lo.toNat + 256 * hi.toNat)
      .ok ⟨m, some (lo.toNat + 256 * hi.toNat)⟩)

/-- "`m = MemRead(ea, 1)` holds for every mode that has an `ea`" (40_addressing_modes.md R117), under every configuration: the
operand is always the value stored at the effective address, never the address, and A or zero where a mode has none. -/
def Obligations.OperandIsTheByteAtTheEffectiveAddress : Prop :=
  ∀ (cfg : Config) (mode : Mode) (s : State) (m : Byte),
    (∀ ea, resolveAtPc cfg mode s = .ok ⟨m, some ea⟩ → memRead s ea = .ok m) ∧
    (resolveAtPc cfg mode s = .ok ⟨m, none⟩ → (mode = .acc ∧ m = s.a) ∨ (mode = .imp ∧ m = 0x00))

/-- The addresses that can be out of range (60_exceptions.md section 1, the table of codes): 65536..65790, or, for the
Relative mode alone, negative down to -126 (decision D7, log 2). -/
def Obligations.BadAddressesLieInTheirRange : Prop :=
  ∀ (mode : Mode) (o1 o2 : Byte) (s : State) (a : Int), resolve params mode o1 o2 s = .error a →
    (65536 ≤ a ∧ a ≤ 65790) ∨ (mode = .rel ∧ -126 ≤ a ∧ a < 0)

/-- The fault reported is the one at the first bad address in the order operand bytes, pointer bytes, operand, and no mode
reads more than five cells (20_memory.md section 5, 60_exceptions.md section 3; decision D16, log 18). -/
def Obligations.FirstBadAccessIsTheOneReported : Prop :=
  ∀ (cfg : Config) (mode : Mode) (o1 o2 : Byte) (s : State),
    ((resolveReads cfg mode o1 o2 s).find? fun a => !decide (0 ≤ a ∧ a ≤ 65535)) =
      (match resolve cfg mode o1 o2 s with
        | .error a => some a
        | .ok _ => none) ∧
    (resolveReads cfg mode o1 o2 s).length ≤ 5

/-- Under the alternative of decision D7 in which every sum wraps, AddressOutOfRange is unreachable
(91_not_in_source.md N9; log 2). -/
def Obligations.WrappedSumsNeverFault : Prop :=
  ∀ (cfg : Config) (mode : Mode) (o1 o2 : Byte) (s : State), cfg.addrOverflow = .wrap →
    ∃ p, resolve cfg mode o1 o2 s = .ok p

/-! ## Results: each says that the instruction completes and with what -/

/-- ADC (42_adc.md R150), all eight forms (adcImm adcZp adcZpx adcAbs adcAbx adcAby adcIzx adcIzy): where the addresses of
the form exist it completes, with A the sum mod 256, C the carry out of the untruncated sum, Z and N from the stored A, V by
the formula, I D B X Y SP and memory as they were, and PC advanced by the length. -/
def Obligations.AdcResult : Prop :=
  ∀ (i : Instr) (s : State), i.op = .adc → Fits i s →
    ∃ t, exec i s = .next t ∧
      t.a.toNat = (s.a.toNat + (specOperand i.mode i.o1 i.o2 s).toNat + s.flagC.toNat) % 256 ∧
      (t.flagC = true ↔ s.a.toNat + (specOperand i.mode i.o1 i.o2 s).toNat + s.flagC.toNat > 255) ∧
      (t.flagZ = true ↔ t.a.toNat = 0) ∧
      t.flagN = t.a.msb ∧
      (t.flagV = true ↔
        (~~~(s.a ^^^ specOperand i.mode i.o1 i.o2 s)) &&& (s.a ^^^ t.a) &&& (0x80 : Byte) ≠ 0) ∧
      t.flagI = s.flagI ∧ t.flagD = s.flagD ∧ t.flagB = s.flagB ∧
      t.x = s.x ∧ t.y = s.y ∧ t.sp = s.sp ∧ t.mem = s.mem ∧
      t.pc.toNat = (s.pc.toNat + i.length) % 65536

/-- AND (43_and.md R170), all eight forms (andImm andZp andZpx andAbs andAbx andAby andIzx andIzy): A takes the bitwise AND,
Z and N come from it, C V I D B X Y SP and memory keep their values, PC is advanced. -/
def Obligations.AndResult : Prop :=
  ∀ (i : Instr) (s : State), i.op = .and → Fits i s →
    ∃ t, exec i s = .next t ∧
      (∀ k, t.a.getLsbD k = (s.a.getLsbD k && (specOperand i.mode i.o1 i.o2 s).getLsbD k)) ∧
      (t.flagZ = true ↔ t.a.toNat = 0) ∧
      t.flagN = t.a.msb ∧
      t.flagC = s.flagC ∧ t.flagV = s.flagV ∧ t.flagI = s.flagI ∧ t.flagD = s.flagD ∧ t.flagB = s.flagB ∧
      t.x = s.x ∧ t.y = s.y ∧ t.sp = s.sp ∧ t.mem = s.mem ∧
      t.pc.toNat = (s.pc.toNat + i.length) % 65536

/-- LDA (44_lda.md R190), all eight forms (ldaImm ldaZp ldaZpx ldaAbs ldaAbx ldaAby ldaIzx ldaIzy): A takes the operand, Z and
N come from it, C V I D B X Y SP and memory keep their values, PC is advanced; the old A is not read. -/
def Obligations.LdaResult : Prop :=
  ∀ (i : Instr) (s : State), i.op = .lda → Fits i s →
    ∃ t, exec i s = .next t ∧
      t.a = specOperand i.mode i.o1 i.o2 s ∧
      (t.flagZ = true ↔ t.a.toNat = 0) ∧
      t.flagN = t.a.msb ∧
      t.flagC = s.flagC ∧ t.flagV = s.flagV ∧ t.flagI = s.flagI ∧ t.flagD = s.flagD ∧ t.flagB = s.flagB ∧
      t.x = s.x ∧ t.y = s.y ∧ t.sp = s.sp ∧ t.mem = s.mem ∧
      t.pc.toNat = (s.pc.toNat + i.length) % 65536 ∧
      ∀ v, exec i { s with a := v } = .next t

/-- ASL (45_asl.md R210), all five forms (aslAcc aslZp aslZpx aslAbs aslAbx): the operand shifted left by one goes to A in
Accumulator mode, otherwise to the effective address the operand came from; C takes the operand's bit 7, Z and N come from
the result; the other of A and memory, V I D B X Y SP keep their values, PC is advanced. -/
def Obligations.AslResult : Prop :=
  ∀ (i : Instr) (s : State), s.mem.wf = true → i.op = .asl → Fits i s →
    ∃ (t : State) (r : Byte), exec i s = .next t ∧
      r.toNat = 2 * (specOperand i.mode i.o1 i.o2 s).toNat % 256 ∧
      (i.mode = .acc → t.a = r ∧ t.mem = s.mem) ∧
      (i.mode ≠ .acc → t.a = s.a ∧ ∃ ea, specAddress i.mode i.o1 i.o2 s = some ea ∧
        t.mem.read ea.toNat = r ∧ ∀ b : Nat, (b : Int) ≠ ea → t.mem.read b = s.mem.read b) ∧
      (t.flagC = true ↔ (specOperand i.mode i.o1 i.o2 s).toNat ≥ 128) ∧
      (t.flagZ = true ↔ r.toNat = 0) ∧
      t.flagN = r.msb ∧
      t.flagV = s.flagV ∧ t.flagI = s.flagI ∧ t.flagD = s.flagD ∧ t.flagB = s.flagB ∧
      t.x = s.x ∧ t.y = s.y ∧ t.sp = s.sp ∧
      t.pc.toNat = (s.pc.toNat + i.length) % 65536

/-- The arithmetic laws of ADC (42_adc.md section 1, the laws the spec validated): `256 * C' + A' = A + m + C`; V' is 1
exactly when the signed sum lies outside -128..127; V' equals `((a ^ r) & (m ^ r) & 0x80) != 0`. -/
def Obligations.AdcArithmeticLaws : Prop :=
  ∀ (a m : Byte) (c : Bool),
    256 * (adcCarry a m c).toNat + (adcResult a m c).toNat = a.toNat + m.toNat + c.toNat ∧
    (adcOverflow a m c = true ↔
      (sext8 a + sext8 m + (c.toNat : Int) < -128 ∨ 127 < sext8 a + sext8 m + (c.toNat : Int))) ∧
    (adcOverflow a m c = true ↔
      (a ^^^ adcResult a m c) &&& (m ^^^ adcResult a m c) &&& (0x80 : Byte) ≠ 0)

/-- ASL is a doubling whose ninth bit goes to C (45_asl.md R217): `256 * C' + r = 2 * m` for the stored result r, V is not
written, and signed overflow of the doubling shows exactly as C' ≠ N'. -/
def Obligations.AslIsADoubling : Prop :=
  ∀ (i : Instr) (s t : State), s.mem.wf = true → i.op = .asl → Fits i s → exec i s = .next t →
    (i.mode = .acc → 256 * t.flagC.toNat + t.a.toNat = 2 * (specOperand i.mode i.o1 i.o2 s).toNat) ∧
    (∀ ea, specAddress i.mode i.o1 i.o2 s = some ea →
      256 * t.flagC.toNat + (t.mem.read ea.toNat).toNat = 2 * (specOperand i.mode i.o1 i.o2 s).toNat) ∧
    t.flagV = s.flagV ∧
    ((2 * sext8 (specOperand i.mode i.o1 i.o2 s) < -128 ∨ 127 < 2 * sext8 (specOperand i.mode i.o1 i.o2 s)) ↔
      t.flagC ≠ t.flagN)

/-- "ADC is binary for every value of D" (42_adc.md R160): an ADC from a state with D set or cleared ends in the same state
up to D, and its result is the binary sum. -/
def Obligations.DecimalFlagDoesNotAffectAdc : Prop :=
  ∀ (i : Instr) (s : State) (d : Bool), i.op = .adc → Fits i s →
    ∃ t, exec i s = .next t ∧ exec i { s with flagD := d } = .next { t with flagD := d } ∧
      t.a.toNat = (s.a.toNat + (specOperand i.mode i.o1 i.o2 s).toNat + s.flagC.toNat) % 256

/-- PC advancement (10_state.md R26): an instruction that completes advances PC by its length, 1, 2 or 3, modulo 65536; a step
that faults leaves PC; loading and clearing memory leave PC. The length of each instruction is decision D2 (log 1). -/
def Obligations.PcAdvancesByTheLengthModulo65536 : Prop :=
  (∀ (i : Instr) (s : State), Fits i s →
    ∃ t, exec i s = .next t ∧ t.pc.toNat = (s.pc.toNat + i.length) % 65536 ∧ 1 ≤ i.length ∧ i.length ≤ 3) ∧
  (∀ s t : State, step s = .next t → t.phase = .halted → t.pc = s.pc) ∧
  (∀ (s t : State) (e : Event), e ≠ .step → e ≠ .powerOn → e ≠ .reset → event e s = .next t → t.pc = s.pc)

/-- Every instruction whose addresses exist completes in phase Running with FAULT as it was and CYC increased by the cycles
of 70_reset_and_hazards.md R276, whatever its operands (decisions D3, D10, D14, logs 1, 6, 7). -/
def Obligations.CompletionAddsTheCyclesOfTheMode : Prop :=
  ∀ (i : Instr) (s : State), Fits i s →
    ∃ t, exec i s = .next t ∧ t.phase = .running ∧ t.fault = s.fault ∧
      t.cyc = (s.cyc + cyclesOf i.op i.mode) % 2 ^ 64 ∧ 2 ≤ cyclesOf i.op i.mode

/-! ## Frames -/

/-- What ADC, AND, LDA and `ASL A` leave unchanged, whether they complete or take the address fault (10_state.md section 4,
42_adc.md, 43_and.md, 44_lda.md, 45_asl.md sections 1): X, Y, SP, I, D, B; C under AND and LDA; V under all but ADC; FAULT
when the form completes; every byte of memory. Only A, PC, CYC, the phase and the flags the rule names may change. -/
def Obligations.AccumulatorFormsFrame : Prop :=
  ∀ (i : Instr) (s t : State), (i.op ≠ .asl ∨ i.mode = .acc) → exec i s = .next t →
    t.x = s.x ∧ t.y = s.y ∧ t.sp = s.sp ∧ t.flagI = s.flagI ∧ t.flagD = s.flagD ∧ t.flagB = s.flagB ∧
    (i.op = .and ∨ i.op = .lda → t.flagC = s.flagC) ∧ (i.op ≠ .adc → t.flagV = s.flagV) ∧
    (t.phase ≠ .halted → t.fault = s.fault) ∧
    (∀ b, t.mem.read b = s.mem.read b)

/-- What memory-mode ASL (aslZp aslZpx aslAbs aslAbx) leaves unchanged (45_asl.md section 1, R216): A, X, Y, SP, I, D, B, V;
FAULT when it completes; every byte of memory outside the one cell at the effective address its resolution computes, and
every byte where the resolution raises a fault instead. -/
def Obligations.MemoryShiftFrame : Prop :=
  ∀ (i : Instr) (s t : State), i.op = .asl → i.mode ≠ .acc → exec i s = .next t →
    t.a = s.a ∧ t.x = s.x ∧ t.y = s.y ∧ t.sp = s.sp ∧
    t.flagI = s.flagI ∧ t.flagD = s.flagD ∧ t.flagB = s.flagB ∧ t.flagV = s.flagV ∧
    (t.phase ≠ .halted → t.fault = s.fault) ∧
    (∀ (m : Byte) (ea : Int), resolve params i.mode i.o1 i.o2 s = .ok ⟨m, some ea⟩ →
      ∀ b : Nat, (b : Int) ≠ ea → t.mem.read b = s.mem.read b) ∧
    (∀ a, resolve params i.mode i.o1 i.o2 s = .error a → t.mem = s.mem)

/-! ## Faults -/

/-- UnsupportedOpcode (60_exceptions.md R231), at any PC: a byte with no table entry stops the core, FAULT records the opcode
and the PC, nothing else changes. -/
def Obligations.UnsupportedOpcodeFaults : Prop :=
  ∀ s : State, s.phase ≠ .halted →
    lookupEntry params.opcodeTable (s.mem.read s.pc.toNat) = none →
    step s = .next { s with fault := some (.unsupportedOpcode (s.mem.read s.pc.toNat) s.pc), phase := .halted } ∧
    stepOutput s = .fault (.unsupportedOpcode (s.mem.read s.pc.toNat) s.pc)

/-- AddressOutOfRange of every instruction form (60_exceptions.md section 1, R232 and R233): an operand byte past 0xFFFF is
reported as 65536, before any indexed sum; else an effective address outside 0..65535 is reported as it is; nothing else
changes. That such sums fault is decision D7 (log 2), the Halted state decision D10 (log 6). -/
def Obligations.BadAddressesFaultPrecisely : Prop :=
  ∀ (i : Instr) (s : State),
    (65535 < s.pc.toNat + i.mode.operandCount →
      exec i s = .next { s with fault := some (.addressOutOfRange 65536 s.pc), phase := .halted }) ∧
    (s.pc.toNat + i.mode.operandCount ≤ 65535 →
      ∀ ea, specAddress i.mode i.o1 i.o2 s = some ea → ¬ (0 ≤ ea ∧ ea ≤ 65535) →
        exec i s = .next { s with fault := some (.addressOutOfRange ea s.pc), phase := .halted })

/-- A fault is precise and leaves no partial effect (60_exceptions.md sections 4, R240 and R241): the step that ends in Halted
changed FAULT and the phase and nothing else, and the record holds the PC of the instruction (decision D10, log 6). -/
def Obligations.FaultsArePrecise : Prop :=
  ∀ s t : State, step s = .next t → t.phase = .halted →
    t = { s with fault := t.fault, phase := .halted } ∧
    ((∃ opcode, t.fault = some (.unsupportedOpcode opcode s.pc)) ∨
      ∃ addr, t.fault = some (.addressOutOfRange addr s.pc) ∧ ¬ (0 ≤ addr ∧ addr ≤ 65535))

/-! ## The step -/

/-- A step runs the decoded instruction (41_core_step.md R132): the window holds the bytes at PC, PC+1, PC+2 that exist, and
when it decodes to a well-formed instruction the step is that instruction's meaning and nothing around it, the meaning
itself advancing PC. So it is when an instruction's encoding stands in memory at PC. -/
def Obligations.StepRunsTheDecodedInstruction : Prop :=
  ∀ s : State, s.phase ≠ .halted →
    (∀ k, k < 3 → s.pc.toNat + k ≤ 65535 → (fetchWindow params s)[k]? = some (s.mem.read (s.pc.toNat + k))) ∧
    (∀ (i : Instr) (rest : List Byte), decode (fetchWindow params s) = .ok (i, rest) → i.wf = true → step s = exec i s) ∧
    (∀ i : Instr, i.wf = true → s.pc.toNat + i.length ≤ 65536 →
      (∀ k, k < i.length → s.mem.read (s.pc.toNat + k) = (encode i).getD k 0) → step s = exec i s)

/-- An instruction placed at PC is the one the next step runs: what stands for the host's load of a program (log 13). -/
def Obligations.PlacedInstructionRunsNext : Prop :=
  ∀ (i : Instr) (s : State), s.mem.wf = true → s.phase ≠ .halted → s.pc.toNat + i.length ≤ 65536 →
    step (placeAtPc s (encode i)) = exec i (placeAtPc s (encode i))

/-- The step is the table-driven algorithm of 41_core_step.md R132 under this hardware's parameters: the 29 meanings and the
generic one over (instruction, mode, length, cycles) agree on every state (30_encoding.md R94; log 16). -/
def Obligations.StepIsTheTableDrivenStep : Prop :=
  ∀ s : State, step s = stepWith params s

/-- The transitions of the phase (41_core_step.md R131; decision D10, log 6): a step is answered exactly when the core is not
Halted; it ends in Running with FAULT as it was, or in Halted with a record; it never returns to Reset and is never refused. -/
def Obligations.StepMovesThePhase : Prop :=
  ∀ s : State,
    (s.phase = .halted ∧ step s = .fault .halted) ∨
    (s.phase ≠ .halted ∧ ∃ t, step s = .next t ∧
      ((t.phase = .running ∧ t.fault = s.fault) ∨ (t.phase = .halted ∧ t.fault ≠ none)))

/-- What a step returns and what it does agree (00_scope.md R14, 41_core_step.md R138; decisions D14, D19, log 7): `ok(cycles)`
goes with a step into Running that adds those cycles to CYC, `fault(record)` with one into Halted that records it and
leaves CYC, nothing with no step. That the cycles are 2 to 7 comes from the table's counts, decision D3 (30_encoding.md
section 3, log 1). -/
def Obligations.StepOutputAgreesWithTheStep : Prop :=
  ∀ s : State,
    (∀ c, stepOutput s = .ok c → ∃ t, step s = .next t ∧ t.phase = .running ∧ t.fault = s.fault ∧
      t.cyc = (s.cyc + c) % 2 ^ 64 ∧ 2 ≤ c ∧ c ≤ 7) ∧
    (∀ r, stepOutput s = .fault r → step s = .next { s with fault := some r, phase := .halted }) ∧
    (stepOutput s = .none ↔ step s = .fault .halted)
end

