-- ==== Sys2Proof/Laws/Memory.lean ====
section
/-! SUPPORT. The laws of memory: reading what was written, leaving every other cell alone, keeping the canonical form. -/

namespace Sys2Proof.Machine

theorem Memory.read_of_wfFrom_lt {lo a : Nat} : ∀ {m : Memory}, memoryWfFrom lo m = true → a < lo →
    Memory.read m a = unlistedByte
  | [], _, _ => rfl
  | (k, v) :: t, h, ha => by
    simp only [memoryWfFrom, Bool.and_eq_true, decide_eq_true_eq] at h
    obtain ⟨⟨⟨hk, -⟩, -⟩, ht⟩ := h
    have hne : k ≠ a := by omega
    simp only [Memory.read, hne, if_false]
    exact Memory.read_of_wfFrom_lt ht (by omega)

theorem memoryWfFrom_mono {lo lo' : Nat} (h : lo ≤ lo') : ∀ {m : Memory}, memoryWfFrom lo' m = true →
    memoryWfFrom lo m = true
  | [], _ => rfl
  | (k, v) :: t, hm => by
    simp only [memoryWfFrom, Bool.and_eq_true, decide_eq_true_eq] at hm ⊢
    exact ⟨⟨⟨h.trans hm.1.1.1, hm.1.1.2⟩, hm.1.2⟩, hm.2⟩

/-- A write inside 0..65535 keeps the canonical form. -/
theorem Memory.write_wfFrom {lo a : Nat} {v : Byte} (ha : a < 65536) (hlo : lo ≤ a) : ∀ {m : Memory},
    memoryWfFrom lo m = true → memoryWfFrom lo (Memory.write m a v) = true
  | [], _ => by
    by_cases hv : v = unlistedByte <;> simp [Memory.write, memoryWfFrom, hv, ha, hlo]
  | (k, w) :: t, h => by
    have h' := h
    simp only [memoryWfFrom, Bool.and_eq_true, decide_eq_true_eq] at h'
    obtain ⟨⟨⟨hk, hk6⟩, hw⟩, ht⟩ := h'
    rcases Nat.lt_trichotomy a k with hak | hak | hak
    · by_cases hv : v = unlistedByte
      · simpa [Memory.write, hak, hv] using h
      · simp [Memory.write, memoryWfFrom, hak, hv, ha, hlo, hk6, hw, ht, Nat.succ_le_of_lt hak]
    · subst hak
      by_cases hv : v = unlistedByte
      · simpa [Memory.write, hv] using memoryWfFrom_mono (by omega) ht
      · simp [Memory.write, memoryWfFrom, hv, hk, hk6, ht]
    · have h1 : ¬ a < k := by omega
      have h2 : a ≠ k := by omega
      have ih := Memory.write_wfFrom (v := v) ha (Nat.succ_le_of_lt hak) ht
      simp [Memory.write, memoryWfFrom, h1, h2, hk, hk6, hw, ih]

/-- Every memory write keeps the canonical form. -/
theorem Memory.write_wf {m : Memory} {a : Nat} {v : Byte} (ha : a < 65536) (h : m.wf = true) :
    Memory.wf (Memory.write m a v) = true := Memory.write_wfFrom ha (Nat.zero_le a) h

theorem Memory.writeBytes_wf : ∀ {bs : List Byte} {m : Memory} {a : Nat}, a + bs.length ≤ 65536 → m.wf = true →
    Memory.wf (Memory.writeBytes m a bs) = true
  | [], _, _, _, h => h
  | b :: bs, m, a, hl, h => by
    simp only [List.length_cons] at hl
    have hb : Memory.wf (Memory.write m a b) = true := Memory.write_wf (by omega) h
    exact Memory.writeBytes_wf (m := Memory.write m a b) (a := a + 1) (by omega) hb

theorem Memory.read_write_same_from {lo a : Nat} {v : Byte} : ∀ {m : Memory}, memoryWfFrom lo m = true →
    Memory.read (Memory.write m a v) a = v
  | [], _ => by
    by_cases hv : v = unlistedByte <;> simp [Memory.write, Memory.read, hv]
  | (k, w) :: t, h => by
    simp only [memoryWfFrom, Bool.and_eq_true, decide_eq_true_eq] at h
    obtain ⟨⟨⟨-, -⟩, -⟩, ht⟩ := h
    rcases Nat.lt_trichotomy a k with hak | hak | hak
    · have hne : k ≠ a := by omega
      by_cases hv : v = unlistedByte
      · simp [Memory.write, Memory.read, hak, hv, hne, Memory.read_of_wfFrom_lt ht (by omega : a < k + 1)]
      · simp [Memory.write, Memory.read, hak, hv]
    · subst hak
      by_cases hv : v = unlistedByte
      · simp [Memory.write, hv, Memory.read_of_wfFrom_lt ht (by omega : a < a + 1)]
      · simp [Memory.write, Memory.read, hv]
    · have h1 : ¬ a < k := by omega
      have h2 : a ≠ k := by omega
      have h3 : k ≠ a := by omega
      simp [Memory.write, Memory.read, h1, h2, h3, Memory.read_write_same_from ht]

/-- A read of the cell just written gives the value written (R52). -/
theorem Memory.read_write_same {m : Memory} {a : Nat} {v : Byte} (h : m.wf = true) :
    Memory.read (Memory.write m a v) a = v := Memory.read_write_same_from h

/-- A write changes no other cell (R52: "no aliasing across addresses"). -/
theorem Memory.read_write_ne {a b : Nat} {v : Byte} (hab : b ≠ a) : ∀ {m : Memory},
    Memory.read (Memory.write m a v) b = Memory.read m b
  | [] => by
    by_cases hv : v = unlistedByte <;> simp [Memory.write, Memory.read, hv, Ne.symm hab]
  | (k, w) :: t => by
    rcases Nat.lt_trichotomy a k with hak | hak | hak
    · by_cases hv : v = unlistedByte <;> simp [Memory.write, Memory.read, hak, hv, Ne.symm hab]
    · subst hak
      by_cases hv : v = unlistedByte <;> simp [Memory.write, Memory.read, hv, Ne.symm hab]
    · have h1 : ¬ a < k := by omega
      have h2 : a ≠ k := by omega
      by_cases hkb : k = b
      · subst hkb
        simp [Memory.write, Memory.read, h1, h2]
      · simp [Memory.write, Memory.read, h1, h2, hkb, Memory.read_write_ne hab]

/-- Writing a run of bytes changes no cell below it. -/
theorem Memory.read_writeBytes_lt : ∀ {bs : List Byte} {m : Memory} {a b : Nat}, b < a →
    Memory.read (Memory.writeBytes m a bs) b = Memory.read m b
  | [], _, _, _, _ => rfl
  | v :: bs, m, a, b, h => by
    rw [Memory.writeBytes, Memory.read_writeBytes_lt (by omega), Memory.read_write_ne (by omega)]

end Sys2Proof.Machine
end

