-- ==== Sys2Proof/Laws/State.lean ====
section
/-! SUPPORT. One lemma per field of State per update: what each named update and each instruction's effect leaves in it. -/

namespace Sys2Proof.Machine

@[simp] theorem State.setMem_a (m : Memory) (s : State) : (s.setMem m).a = s.a := rfl
@[simp] theorem State.setMem_x (m : Memory) (s : State) : (s.setMem m).x = s.x := rfl
@[simp] theorem State.setMem_y (m : Memory) (s : State) : (s.setMem m).y = s.y := rfl
@[simp] theorem State.setMem_sp (m : Memory) (s : State) : (s.setMem m).sp = s.sp := rfl
@[simp] theorem State.setMem_pc (m : Memory) (s : State) : (s.setMem m).pc = s.pc := rfl
@[simp] theorem State.setMem_flagC (m : Memory) (s : State) : (s.setMem m).flagC = s.flagC := rfl
@[simp] theorem State.setMem_flagZ (m : Memory) (s : State) : (s.setMem m).flagZ = s.flagZ := rfl
@[simp] theorem State.setMem_flagI (m : Memory) (s : State) : (s.setMem m).flagI = s.flagI := rfl
@[simp] theorem State.setMem_flagD (m : Memory) (s : State) : (s.setMem m).flagD = s.flagD := rfl
@[simp] theorem State.setMem_flagB (m : Memory) (s : State) : (s.setMem m).flagB = s.flagB := rfl
@[simp] theorem State.setMem_flagV (m : Memory) (s : State) : (s.setMem m).flagV = s.flagV := rfl
@[simp] theorem State.setMem_flagN (m : Memory) (s : State) : (s.setMem m).flagN = s.flagN := rfl
@[simp] theorem State.setMem_mem (m : Memory) (s : State) : (s.setMem m).mem = m := rfl
@[simp] theorem State.setMem_phase (m : Memory) (s : State) : (s.setMem m).phase = s.phase := rfl
@[simp] theorem State.setMem_fault (m : Memory) (s : State) : (s.setMem m).fault = s.fault := rfl
@[simp] theorem State.setMem_cyc (m : Memory) (s : State) : (s.setMem m).cyc = s.cyc := rfl

@[simp] theorem State.setA_a (v : Byte) (s : State) : (s.setA v).a = v := rfl
@[simp] theorem State.setA_x (v : Byte) (s : State) : (s.setA v).x = s.x := rfl
@[simp] theorem State.setA_y (v : Byte) (s : State) : (s.setA v).y = s.y := rfl
@[simp] theorem State.setA_sp (v : Byte) (s : State) : (s.setA v).sp = s.sp := rfl
@[simp] theorem State.setA_pc (v : Byte) (s : State) : (s.setA v).pc = s.pc := rfl
@[simp] theorem State.setA_flagC (v : Byte) (s : State) : (s.setA v).flagC = s.flagC := rfl
@[simp] theorem State.setA_flagZ (v : Byte) (s : State) : (s.setA v).flagZ = s.flagZ := rfl
@[simp] theorem State.setA_flagI (v : Byte) (s : State) : (s.setA v).flagI = s.flagI := rfl
@[simp] theorem State.setA_flagD (v : Byte) (s : State) : (s.setA v).flagD = s.flagD := rfl
@[simp] theorem State.setA_flagB (v : Byte) (s : State) : (s.setA v).flagB = s.flagB := rfl
@[simp] theorem State.setA_flagV (v : Byte) (s : State) : (s.setA v).flagV = s.flagV := rfl
@[simp] theorem State.setA_flagN (v : Byte) (s : State) : (s.setA v).flagN = s.flagN := rfl
@[simp] theorem State.setA_mem (v : Byte) (s : State) : (s.setA v).mem = s.mem := rfl
@[simp] theorem State.setA_phase (v : Byte) (s : State) : (s.setA v).phase = s.phase := rfl
@[simp] theorem State.setA_fault (v : Byte) (s : State) : (s.setA v).fault = s.fault := rfl
@[simp] theorem State.setA_cyc (v : Byte) (s : State) : (s.setA v).cyc = s.cyc := rfl

@[simp] theorem State.setC_a (v : Bool) (s : State) : (s.setC v).a = s.a := rfl
@[simp] theorem State.setC_x (v : Bool) (s : State) : (s.setC v).x = s.x := rfl
@[simp] theorem State.setC_y (v : Bool) (s : State) : (s.setC v).y = s.y := rfl
@[simp] theorem State.setC_sp (v : Bool) (s : State) : (s.setC v).sp = s.sp := rfl
@[simp] theorem State.setC_pc (v : Bool) (s : State) : (s.setC v).pc = s.pc := rfl
@[simp] theorem State.setC_flagC (v : Bool) (s : State) : (s.setC v).flagC = v := rfl
@[simp] theorem State.setC_flagZ (v : Bool) (s : State) : (s.setC v).flagZ = s.flagZ := rfl
@[simp] theorem State.setC_flagI (v : Bool) (s : State) : (s.setC v).flagI = s.flagI := rfl
@[simp] theorem State.setC_flagD (v : Bool) (s : State) : (s.setC v).flagD = s.flagD := rfl
@[simp] theorem State.setC_flagB (v : Bool) (s : State) : (s.setC v).flagB = s.flagB := rfl
@[simp] theorem State.setC_flagV (v : Bool) (s : State) : (s.setC v).flagV = s.flagV := rfl
@[simp] theorem State.setC_flagN (v : Bool) (s : State) : (s.setC v).flagN = s.flagN := rfl
@[simp] theorem State.setC_mem (v : Bool) (s : State) : (s.setC v).mem = s.mem := rfl
@[simp] theorem State.setC_phase (v : Bool) (s : State) : (s.setC v).phase = s.phase := rfl
@[simp] theorem State.setC_fault (v : Bool) (s : State) : (s.setC v).fault = s.fault := rfl
@[simp] theorem State.setC_cyc (v : Bool) (s : State) : (s.setC v).cyc = s.cyc := rfl

@[simp] theorem State.setZ_a (v : Bool) (s : State) : (s.setZ v).a = s.a := rfl
@[simp] theorem State.setZ_x (v : Bool) (s : State) : (s.setZ v).x = s.x := rfl
@[simp] theorem State.setZ_y (v : Bool) (s : State) : (s.setZ v).y = s.y := rfl
@[simp] theorem State.setZ_sp (v : Bool) (s : State) : (s.setZ v).sp = s.sp := rfl
@[simp] theorem State.setZ_pc (v : Bool) (s : State) : (s.setZ v).pc = s.pc := rfl
@[simp] theorem State.setZ_flagC (v : Bool) (s : State) : (s.setZ v).flagC = s.flagC := rfl
@[simp] theorem State.setZ_flagZ (v : Bool) (s : State) : (s.setZ v).flagZ = v := rfl
@[simp] theorem State.setZ_flagI (v : Bool) (s : State) : (s.setZ v).flagI = s.flagI := rfl
@[simp] theorem State.setZ_flagD (v : Bool) (s : State) : (s.setZ v).flagD = s.flagD := rfl
@[simp] theorem State.setZ_flagB (v : Bool) (s : State) : (s.setZ v).flagB = s.flagB := rfl
@[simp] theorem State.setZ_flagV (v : Bool) (s : State) : (s.setZ v).flagV = s.flagV := rfl
@[simp] theorem State.setZ_flagN (v : Bool) (s : State) : (s.setZ v).flagN = s.flagN := rfl
@[simp] theorem State.setZ_mem (v : Bool) (s : State) : (s.setZ v).mem = s.mem := rfl
@[simp] theorem State.setZ_phase (v : Bool) (s : State) : (s.setZ v).phase = s.phase := rfl
@[simp] theorem State.setZ_fault (v : Bool) (s : State) : (s.setZ v).fault = s.fault := rfl
@[simp] theorem State.setZ_cyc (v : Bool) (s : State) : (s.setZ v).cyc = s.cyc := rfl

@[simp] theorem State.setN_a (v : Bool) (s : State) : (s.setN v).a = s.a := rfl
@[simp] theorem State.setN_x (v : Bool) (s : State) : (s.setN v).x = s.x := rfl
@[simp] theorem State.setN_y (v : Bool) (s : State) : (s.setN v).y = s.y := rfl
@[simp] theorem State.setN_sp (v : Bool) (s : State) : (s.setN v).sp = s.sp := rfl
@[simp] theorem State.setN_pc (v : Bool) (s : State) : (s.setN v).pc = s.pc := rfl
@[simp] theorem State.setN_flagC (v : Bool) (s : State) : (s.setN v).flagC = s.flagC := rfl
@[simp] theorem State.setN_flagZ (v : Bool) (s : State) : (s.setN v).flagZ = s.flagZ := rfl
@[simp] theorem State.setN_flagI (v : Bool) (s : State) : (s.setN v).flagI = s.flagI := rfl
@[simp] theorem State.setN_flagD (v : Bool) (s : State) : (s.setN v).flagD = s.flagD := rfl
@[simp] theorem State.setN_flagB (v : Bool) (s : State) : (s.setN v).flagB = s.flagB := rfl
@[simp] theorem State.setN_flagV (v : Bool) (s : State) : (s.setN v).flagV = s.flagV := rfl
@[simp] theorem State.setN_flagN (v : Bool) (s : State) : (s.setN v).flagN = v := rfl
@[simp] theorem State.setN_mem (v : Bool) (s : State) : (s.setN v).mem = s.mem := rfl
@[simp] theorem State.setN_phase (v : Bool) (s : State) : (s.setN v).phase = s.phase := rfl
@[simp] theorem State.setN_fault (v : Bool) (s : State) : (s.setN v).fault = s.fault := rfl
@[simp] theorem State.setN_cyc (v : Bool) (s : State) : (s.setN v).cyc = s.cyc := rfl

@[simp] theorem State.setV_a (v : Bool) (s : State) : (s.setV v).a = s.a := rfl
@[simp] theorem State.setV_x (v : Bool) (s : State) : (s.setV v).x = s.x := rfl
@[simp] theorem State.setV_y (v : Bool) (s : State) : (s.setV v).y = s.y := rfl
@[simp] theorem State.setV_sp (v : Bool) (s : State) : (s.setV v).sp = s.sp := rfl
@[simp] theorem State.setV_pc (v : Bool) (s : State) : (s.setV v).pc = s.pc := rfl
@[simp] theorem State.setV_flagC (v : Bool) (s : State) : (s.setV v).flagC = s.flagC := rfl
@[simp] theorem State.setV_flagZ (v : Bool) (s : State) : (s.setV v).flagZ = s.flagZ := rfl
@[simp] theorem State.setV_flagI (v : Bool) (s : State) : (s.setV v).flagI = s.flagI := rfl
@[simp] theorem State.setV_flagD (v : Bool) (s : State) : (s.setV v).flagD = s.flagD := rfl
@[simp] theorem State.setV_flagB (v : Bool) (s : State) : (s.setV v).flagB = s.flagB := rfl
@[simp] theorem State.setV_flagV (v : Bool) (s : State) : (s.setV v).flagV = v := rfl
@[simp] theorem State.setV_flagN (v : Bool) (s : State) : (s.setV v).flagN = s.flagN := rfl
@[simp] theorem State.setV_mem (v : Bool) (s : State) : (s.setV v).mem = s.mem := rfl
@[simp] theorem State.setV_phase (v : Bool) (s : State) : (s.setV v).phase = s.phase := rfl
@[simp] theorem State.setV_fault (v : Bool) (s : State) : (s.setV v).fault = s.fault := rfl
@[simp] theorem State.setV_cyc (v : Bool) (s : State) : (s.setV v).cyc = s.cyc := rfl

@[simp] theorem State.setZN_a (r : Byte) (s : State) : (s.setZN r).a = s.a := rfl
@[simp] theorem State.setZN_x (r : Byte) (s : State) : (s.setZN r).x = s.x := rfl
@[simp] theorem State.setZN_y (r : Byte) (s : State) : (s.setZN r).y = s.y := rfl
@[simp] theorem State.setZN_sp (r : Byte) (s : State) : (s.setZN r).sp = s.sp := rfl
@[simp] theorem State.setZN_pc (r : Byte) (s : State) : (s.setZN r).pc = s.pc := rfl
@[simp] theorem State.setZN_flagC (r : Byte) (s : State) : (s.setZN r).flagC = s.flagC := rfl
@[simp] theorem State.setZN_flagZ (r : Byte) (s : State) : (s.setZN r).flagZ = zeroFlag r := rfl
@[simp] theorem State.setZN_flagI (r : Byte) (s : State) : (s.setZN r).flagI = s.flagI := rfl
@[simp] theorem State.setZN_flagD (r : Byte) (s : State) : (s.setZN r).flagD = s.flagD := rfl
@[simp] theorem State.setZN_flagB (r : Byte) (s : State) : (s.setZN r).flagB = s.flagB := rfl
@[simp] theorem State.setZN_flagV (r : Byte) (s : State) : (s.setZN r).flagV = s.flagV := rfl
@[simp] theorem State.setZN_flagN (r : Byte) (s : State) : (s.setZN r).flagN = negativeFlag r := rfl
@[simp] theorem State.setZN_mem (r : Byte) (s : State) : (s.setZN r).mem = s.mem := rfl
@[simp] theorem State.setZN_phase (r : Byte) (s : State) : (s.setZN r).phase = s.phase := rfl
@[simp] theorem State.setZN_fault (r : Byte) (s : State) : (s.setZN r).fault = s.fault := rfl
@[simp] theorem State.setZN_cyc (r : Byte) (s : State) : (s.setZN r).cyc = s.cyc := rfl

@[simp] theorem State.complete_a (cfg : Config) (l c : Nat) (s : State) : (s.complete cfg l c).a = s.a := rfl
@[simp] theorem State.complete_x (cfg : Config) (l c : Nat) (s : State) : (s.complete cfg l c).x = s.x := rfl
@[simp] theorem State.complete_y (cfg : Config) (l c : Nat) (s : State) : (s.complete cfg l c).y = s.y := rfl
@[simp] theorem State.complete_sp (cfg : Config) (l c : Nat) (s : State) : (s.complete cfg l c).sp = s.sp := rfl
@[simp] theorem State.complete_pc (cfg : Config) (l c : Nat) (s : State) : (s.complete cfg l c).pc = s.pc + BitVec.ofNat 16 l := rfl
@[simp] theorem State.complete_flagC (cfg : Config) (l c : Nat) (s : State) : (s.complete cfg l c).flagC = s.flagC := rfl
@[simp] theorem State.complete_flagZ (cfg : Config) (l c : Nat) (s : State) : (s.complete cfg l c).flagZ = s.flagZ := rfl
@[simp] theorem State.complete_flagI (cfg : Config) (l c : Nat) (s : State) : (s.complete cfg l c).flagI = s.flagI := rfl
@[simp] theorem State.complete_flagD (cfg : Config) (l c : Nat) (s : State) : (s.complete cfg l c).flagD = s.flagD := rfl
@[simp] theorem State.complete_flagB (cfg : Config) (l c : Nat) (s : State) : (s.complete cfg l c).flagB = s.flagB := rfl
@[simp] theorem State.complete_flagV (cfg : Config) (l c : Nat) (s : State) : (s.complete cfg l c).flagV = s.flagV := rfl
@[simp] theorem State.complete_flagN (cfg : Config) (l c : Nat) (s : State) : (s.complete cfg l c).flagN = s.flagN := rfl
@[simp] theorem State.complete_mem (cfg : Config) (l c : Nat) (s : State) : (s.complete cfg l c).mem = s.mem := rfl
@[simp] theorem State.complete_phase (cfg : Config) (l c : Nat) (s : State) : (s.complete cfg l c).phase = .running := rfl
@[simp] theorem State.complete_fault (cfg : Config) (l c : Nat) (s : State) : (s.complete cfg l c).fault = s.fault := rfl
@[simp] theorem State.complete_cyc (cfg : Config) (l c : Nat) (s : State) : (s.complete cfg l c).cyc = (s.cyc + c) % 2 ^ cfg.cycWidth :=
  rfl

@[simp] theorem State.takeFault_a (r : FaultRecord) (s : State) : (s.takeFault r).a = s.a := rfl
@[simp] theorem State.takeFault_x (r : FaultRecord) (s : State) : (s.takeFault r).x = s.x := rfl
@[simp] theorem State.takeFault_y (r : FaultRecord) (s : State) : (s.takeFault r).y = s.y := rfl
@[simp] theorem State.takeFault_sp (r : FaultRecord) (s : State) : (s.takeFault r).sp = s.sp := rfl
@[simp] theorem State.takeFault_pc (r : FaultRecord) (s : State) : (s.takeFault r).pc = s.pc := rfl
@[simp] theorem State.takeFault_flagC (r : FaultRecord) (s : State) : (s.takeFault r).flagC = s.flagC := rfl
@[simp] theorem State.takeFault_flagZ (r : FaultRecord) (s : State) : (s.takeFault r).flagZ = s.flagZ := rfl
@[simp] theorem State.takeFault_flagI (r : FaultRecord) (s : State) : (s.takeFault r).flagI = s.flagI := rfl
@[simp] theorem State.takeFault_flagD (r : FaultRecord) (s : State) : (s.takeFault r).flagD = s.flagD := rfl
@[simp] theorem State.takeFault_flagB (r : FaultRecord) (s : State) : (s.takeFault r).flagB = s.flagB := rfl
@[simp] theorem State.takeFault_flagV (r : FaultRecord) (s : State) : (s.takeFault r).flagV = s.flagV := rfl
@[simp] theorem State.takeFault_flagN (r : FaultRecord) (s : State) : (s.takeFault r).flagN = s.flagN := rfl
@[simp] theorem State.takeFault_mem (r : FaultRecord) (s : State) : (s.takeFault r).mem = s.mem := rfl
@[simp] theorem State.takeFault_phase (r : FaultRecord) (s : State) : (s.takeFault r).phase = .halted := rfl
@[simp] theorem State.takeFault_fault (r : FaultRecord) (s : State) : (s.takeFault r).fault = some r := rfl
@[simp] theorem State.takeFault_cyc (r : FaultRecord) (s : State) : (s.takeFault r).cyc = s.cyc := rfl

@[simp] theorem adcEffect_a (m : Byte) (s : State) : (adcEffect m s).a = adcResult s.a m s.flagC := rfl
@[simp] theorem adcEffect_x (m : Byte) (s : State) : (adcEffect m s).x = s.x := rfl
@[simp] theorem adcEffect_y (m : Byte) (s : State) : (adcEffect m s).y = s.y := rfl
@[simp] theorem adcEffect_sp (m : Byte) (s : State) : (adcEffect m s).sp = s.sp := rfl
@[simp] theorem adcEffect_pc (m : Byte) (s : State) : (adcEffect m s).pc = s.pc := rfl
@[simp] theorem adcEffect_flagC (m : Byte) (s : State) : (adcEffect m s).flagC = adcCarry s.a m s.flagC := rfl
@[simp] theorem adcEffect_flagZ (m : Byte) (s : State) : (adcEffect m s).flagZ = zeroFlag (adcResult s.a m s.flagC) := rfl
@[simp] theorem adcEffect_flagI (m : Byte) (s : State) : (adcEffect m s).flagI = s.flagI := rfl
@[simp] theorem adcEffect_flagD (m : Byte) (s : State) : (adcEffect m s).flagD = s.flagD := rfl
@[simp] theorem adcEffect_flagB (m : Byte) (s : State) : (adcEffect m s).flagB = s.flagB := rfl
@[simp] theorem adcEffect_flagV (m : Byte) (s : State) : (adcEffect m s).flagV = adcOverflow s.a m s.flagC := rfl
@[simp] theorem adcEffect_flagN (m : Byte) (s : State) : (adcEffect m s).flagN = negativeFlag (adcResult s.a m s.flagC) := rfl
@[simp] theorem adcEffect_mem (m : Byte) (s : State) : (adcEffect m s).mem = s.mem := rfl
@[simp] theorem adcEffect_phase (m : Byte) (s : State) : (adcEffect m s).phase = s.phase := rfl
@[simp] theorem adcEffect_fault (m : Byte) (s : State) : (adcEffect m s).fault = s.fault := rfl
@[simp] theorem adcEffect_cyc (m : Byte) (s : State) : (adcEffect m s).cyc = s.cyc := rfl

@[simp] theorem andEffect_a (m : Byte) (s : State) : (andEffect m s).a = andResult s.a m := rfl
@[simp] theorem andEffect_x (m : Byte) (s : State) : (andEffect m s).x = s.x := rfl
@[simp] theorem andEffect_y (m : Byte) (s : State) : (andEffect m s).y = s.y := rfl
@[simp] theorem andEffect_sp (m : Byte) (s : State) : (andEffect m s).sp = s.sp := rfl
@[simp] theorem andEffect_pc (m : Byte) (s : State) : (andEffect m s).pc = s.pc := rfl
@[simp] theorem andEffect_flagC (m : Byte) (s : State) : (andEffect m s).flagC = s.flagC := rfl
@[simp] theorem andEffect_flagZ (m : Byte) (s : State) : (andEffect m s).flagZ = zeroFlag (andResult s.a m) := rfl
@[simp] theorem andEffect_flagI (m : Byte) (s : State) : (andEffect m s).flagI = s.flagI := rfl
@[simp] theorem andEffect_flagD (m : Byte) (s : State) : (andEffect m s).flagD = s.flagD := rfl
@[simp] theorem andEffect_flagB (m : Byte) (s : State) : (andEffect m s).flagB = s.flagB := rfl
@[simp] theorem andEffect_flagV (m : Byte) (s : State) : (andEffect m s).flagV = s.flagV := rfl
@[simp] theorem andEffect_flagN (m : Byte) (s : State) : (andEffect m s).flagN = negativeFlag (andResult s.a m) := rfl
@[simp] theorem andEffect_mem (m : Byte) (s : State) : (andEffect m s).mem = s.mem := rfl
@[simp] theorem andEffect_phase (m : Byte) (s : State) : (andEffect m s).phase = s.phase := rfl
@[simp] theorem andEffect_fault (m : Byte) (s : State) : (andEffect m s).fault = s.fault := rfl
@[simp] theorem andEffect_cyc (m : Byte) (s : State) : (andEffect m s).cyc = s.cyc := rfl

@[simp] theorem ldaEffect_a (m : Byte) (s : State) : (ldaEffect m s).a = ldaResult m := rfl
@[simp] theorem ldaEffect_x (m : Byte) (s : State) : (ldaEffect m s).x = s.x := rfl
@[simp] theorem ldaEffect_y (m : Byte) (s : State) : (ldaEffect m s).y = s.y := rfl
@[simp] theorem ldaEffect_sp (m : Byte) (s : State) : (ldaEffect m s).sp = s.sp := rfl
@[simp] theorem ldaEffect_pc (m : Byte) (s : State) : (ldaEffect m s).pc = s.pc := rfl
@[simp] theorem ldaEffect_flagC (m : Byte) (s : State) : (ldaEffect m s).flagC = s.flagC := rfl
@[simp] theorem ldaEffect_flagZ (m : Byte) (s : State) : (ldaEffect m s).flagZ = zeroFlag (ldaResult m) := rfl
@[simp] theorem ldaEffect_flagI (m : Byte) (s : State) : (ldaEffect m s).flagI = s.flagI := rfl
@[simp] theorem ldaEffect_flagD (m : Byte) (s : State) : (ldaEffect m s).flagD = s.flagD := rfl
@[simp] theorem ldaEffect_flagB (m : Byte) (s : State) : (ldaEffect m s).flagB = s.flagB := rfl
@[simp] theorem ldaEffect_flagV (m : Byte) (s : State) : (ldaEffect m s).flagV = s.flagV := rfl
@[simp] theorem ldaEffect_flagN (m : Byte) (s : State) : (ldaEffect m s).flagN = negativeFlag (ldaResult m) := rfl
@[simp] theorem ldaEffect_mem (m : Byte) (s : State) : (ldaEffect m s).mem = s.mem := rfl
@[simp] theorem ldaEffect_phase (m : Byte) (s : State) : (ldaEffect m s).phase = s.phase := rfl
@[simp] theorem ldaEffect_fault (m : Byte) (s : State) : (ldaEffect m s).fault = s.fault := rfl
@[simp] theorem ldaEffect_cyc (m : Byte) (s : State) : (ldaEffect m s).cyc = s.cyc := rfl

@[simp] theorem aslFlags_a (m : Byte) (s : State) : (aslFlags m s).a = s.a := rfl
@[simp] theorem aslFlags_x (m : Byte) (s : State) : (aslFlags m s).x = s.x := rfl
@[simp] theorem aslFlags_y (m : Byte) (s : State) : (aslFlags m s).y = s.y := rfl
@[simp] theorem aslFlags_sp (m : Byte) (s : State) : (aslFlags m s).sp = s.sp := rfl
@[simp] theorem aslFlags_pc (m : Byte) (s : State) : (aslFlags m s).pc = s.pc := rfl
@[simp] theorem aslFlags_flagC (m : Byte) (s : State) : (aslFlags m s).flagC = aslCarry m := rfl
@[simp] theorem aslFlags_flagZ (m : Byte) (s : State) : (aslFlags m s).flagZ = zeroFlag (aslResult m) := rfl
@[simp] theorem aslFlags_flagI (m : Byte) (s : State) : (aslFlags m s).flagI = s.flagI := rfl
@[simp] theorem aslFlags_flagD (m : Byte) (s : State) : (aslFlags m s).flagD = s.flagD := rfl
@[simp] theorem aslFlags_flagB (m : Byte) (s : State) : (aslFlags m s).flagB = s.flagB := rfl
@[simp] theorem aslFlags_flagV (m : Byte) (s : State) : (aslFlags m s).flagV = s.flagV := rfl
@[simp] theorem aslFlags_flagN (m : Byte) (s : State) : (aslFlags m s).flagN = negativeFlag (aslResult m) := rfl
@[simp] theorem aslFlags_mem (m : Byte) (s : State) : (aslFlags m s).mem = s.mem := rfl
@[simp] theorem aslFlags_phase (m : Byte) (s : State) : (aslFlags m s).phase = s.phase := rfl
@[simp] theorem aslFlags_fault (m : Byte) (s : State) : (aslFlags m s).fault = s.fault := rfl
@[simp] theorem aslFlags_cyc (m : Byte) (s : State) : (aslFlags m s).cyc = s.cyc := rfl

@[simp] theorem aslAccEffect_a (m : Byte) (s : State) : (aslAccEffect m s).a = aslResult m := rfl
@[simp] theorem aslAccEffect_x (m : Byte) (s : State) : (aslAccEffect m s).x = s.x := rfl
@[simp] theorem aslAccEffect_y (m : Byte) (s : State) : (aslAccEffect m s).y = s.y := rfl
@[simp] theorem aslAccEffect_sp (m : Byte) (s : State) : (aslAccEffect m s).sp = s.sp := rfl
@[simp] theorem aslAccEffect_pc (m : Byte) (s : State) : (aslAccEffect m s).pc = s.pc := rfl
@[simp] theorem aslAccEffect_flagC (m : Byte) (s : State) : (aslAccEffect m s).flagC = aslCarry m := rfl
@[simp] theorem aslAccEffect_flagZ (m : Byte) (s : State) : (aslAccEffect m s).flagZ = zeroFlag (aslResult m) := rfl
@[simp] theorem aslAccEffect_flagI (m : Byte) (s : State) : (aslAccEffect m s).flagI = s.flagI := rfl
@[simp] theorem aslAccEffect_flagD (m : Byte) (s : State) : (aslAccEffect m s).flagD = s.flagD := rfl
@[simp] theorem aslAccEffect_flagB (m : Byte) (s : State) : (aslAccEffect m s).flagB = s.flagB := rfl
@[simp] theorem aslAccEffect_flagV (m : Byte) (s : State) : (aslAccEffect m s).flagV = s.flagV := rfl
@[simp] theorem aslAccEffect_flagN (m : Byte) (s : State) : (aslAccEffect m s).flagN = negativeFlag (aslResult m) := rfl
@[simp] theorem aslAccEffect_mem (m : Byte) (s : State) : (aslAccEffect m s).mem = s.mem := rfl
@[simp] theorem aslAccEffect_phase (m : Byte) (s : State) : (aslAccEffect m s).phase = s.phase := rfl
@[simp] theorem aslAccEffect_fault (m : Byte) (s : State) : (aslAccEffect m s).fault = s.fault := rfl
@[simp] theorem aslAccEffect_cyc (m : Byte) (s : State) : (aslAccEffect m s).cyc = s.cyc := rfl

@[simp] theorem initialise_a (cfg : Config) (s : State) : (initialise cfg s).a = cfg.axyPowerOn := rfl
@[simp] theorem initialise_x (cfg : Config) (s : State) : (initialise cfg s).x = cfg.axyPowerOn := rfl
@[simp] theorem initialise_y (cfg : Config) (s : State) : (initialise cfg s).y = cfg.axyPowerOn := rfl
@[simp] theorem initialise_sp (cfg : Config) (s : State) : (initialise cfg s).sp = cfg.spReset := rfl
@[simp] theorem initialise_pc (cfg : Config) (s : State) : (initialise cfg s).pc = pcAtReset cfg s.mem.read := rfl
@[simp] theorem initialise_flagC (cfg : Config) (s : State) : (initialise cfg s).flagC = false := rfl
@[simp] theorem initialise_flagZ (cfg : Config) (s : State) : (initialise cfg s).flagZ = false := rfl
@[simp] theorem initialise_flagI (cfg : Config) (s : State) : (initialise cfg s).flagI = false := rfl
@[simp] theorem initialise_flagD (cfg : Config) (s : State) : (initialise cfg s).flagD = false := rfl
@[simp] theorem initialise_flagB (cfg : Config) (s : State) : (initialise cfg s).flagB = false := rfl
@[simp] theorem initialise_flagV (cfg : Config) (s : State) : (initialise cfg s).flagV = false := rfl
@[simp] theorem initialise_flagN (cfg : Config) (s : State) : (initialise cfg s).flagN = false := rfl
@[simp] theorem initialise_mem (cfg : Config) (s : State) : (initialise cfg s).mem = s.mem := rfl
@[simp] theorem initialise_phase (cfg : Config) (s : State) : (initialise cfg s).phase = .reset := rfl
@[simp] theorem initialise_fault (cfg : Config) (s : State) : (initialise cfg s).fault = s.fault := rfl
@[simp] theorem initialise_cyc (cfg : Config) (s : State) : (initialise cfg s).cyc = 0 := rfl

@[simp] theorem params_opcodeTable : params.opcodeTable = opcodeTable := rfl
@[simp] theorem params_axyPowerOn : params.axyPowerOn = 0x00 := rfl
@[simp] theorem params_spReset : params.spReset = 0xFD := rfl
@[simp] theorem params_resetVector : params.resetVector = 0xFFFC := rfl
@[simp] theorem params_cycWidth : params.cycWidth = 64 := rfl
@[simp] theorem pcAtReset_params (read : Nat → Byte) :
    pcAtReset params read = mkWord (read 0xFFFC) (read 0xFFFD) := rfl
@[simp] theorem params_addrOverflow : params.addrOverflow = .fault := rfl
@[simp] theorem params_aslWriteback : params.aslWriteback = .effectiveAddress := rfl
@[simp] theorem sumAddr_params (a : Int) : sumAddr params a = a := rfl
@[simp] theorem aslTarget_params (m : Byte) (ea : Int) : aslTarget params m ea = ea := rfl

/-- Two states are equal when every field is. -/
theorem State.ext_fields {s t : State} (ha : s.a = t.a) (hx : s.x = t.x) (hy : s.y = t.y) (hsp : s.sp = t.sp)
    (hpc : s.pc = t.pc) (hc : s.flagC = t.flagC) (hz : s.flagZ = t.flagZ) (hi : s.flagI = t.flagI)
    (hd : s.flagD = t.flagD) (hb : s.flagB = t.flagB) (hv : s.flagV = t.flagV) (hn : s.flagN = t.flagN)
    (hm : s.mem = t.mem) (hp : s.phase = t.phase) (hf : s.fault = t.fault) (hy' : s.cyc = t.cyc) : s = t := by
  cases s; cases t; simp_all

end Sys2Proof.Machine
end

