-- ==== Sys2Proof/Laws/Operands.lean ====
section
/-! SUPPORT. What each shared operation can do, said once: memory accesses, the thirteen modes, the two instruction forms,
an instruction, a step. -/

namespace Sys2Proof.Machine

/-! Memory accesses -/

theorem inRange_iff (a : Int) : inRange a = true ↔ InRange a := by
  cases a with
  | ofNat n => simp [inRange, InRange]
  | negSucc n => simp [inRange, InRange]

theorem inRange_of {a : Int} (h : InRange a) : inRange a = true := (inRange_iff a).2 h

theorem inRange_of_not {a : Int} (h : ¬ InRange a) : inRange a = false := by
  rw [← Bool.not_eq_true, inRange_iff]
  exact h

theorem memRead_of_inRange {s : State} {a : Int} (h : InRange a) : memRead s a = .ok (s.mem.read a.toNat) := by
  rw [memRead, inRange_of h, if_pos rfl]

theorem memRead_of_not_inRange {s : State} {a : Int} (h : ¬ InRange a) : memRead s a = .error a := by
  rw [memRead, inRange_of_not h]
  rfl

theorem memRead_natCast {s : State} {a : Nat} (h : a ≤ 65535) : memRead s (a : Int) = .ok (s.mem.read a) :=
  memRead_of_inRange ⟨by omega, by omega⟩

theorem memWrite_of_inRange {s : State} {a : Int} {v : Byte} (h : InRange a) :
    memWrite s a v.toNat = .ok (s.setMem (s.mem.write a.toNat v)) := by
  rw [memWrite, inRange_of h, if_pos rfl]
  simp

theorem memWrite_of_not_inRange {s : State} {a v : Int} (h : ¬ InRange a) : memWrite s a v = .error a := by
  rw [memWrite, inRange_of_not h]
  rfl

/-- A write that is answered changed memory only, at one cell of 0..65535. -/
theorem memWrite_cases {s t : State} {a v : Int} (h : memWrite s a v = .ok t) :
    InRange a ∧ t = s.setMem (s.mem.write a.toNat (BitVec.ofInt 8 v)) := by
  unfold memWrite at h
  split at h
  · next hr => exact ⟨(inRange_iff a).1 hr, (Except.ok.inj h).symm⟩
  · cases h

/-! Byte assembly -/

theorem mkWord_toNat (lo hi : Byte) : (mkWord lo hi).toNat = lo.toNat + 256 * hi.toNat := by
  have := lo.isLt
  have := hi.isLt
  simp only [mkWord, BitVec.toNat_ofNat]
  omega

theorem mkWord_toNat_le (lo hi : Byte) : (mkWord lo hi).toNat ≤ 65535 := by
  have := (mkWord lo hi).isLt
  omega

/-! Resolver -/

theorem loadOperand_of_inRange {s : State} {ea : Int} (h : InRange ea) :
    loadOperand s ea = .ok ⟨s.mem.read ea.toNat, some ea⟩ := by
  simp [loadOperand, memRead_of_inRange h, bind, Except.bind]

theorem loadOperand_of_not_inRange {s : State} {ea : Int} (h : ¬ InRange ea) : loadOperand s ea = .error ea := by
  simp [loadOperand, memRead_of_not_inRange h, bind, Except.bind]

theorem readPointer_natCast {s : State} {a b : Nat} (ha : a ≤ 65535) (hb : b ≤ 65535) :
    readPointer s (a : Int) (b : Int) = .ok (mkWord (s.mem.read a) (s.mem.read b)) := by
  simp [readPointer, memRead_natCast ha, memRead_natCast hb, bind, Except.bind]

theorem operandByte_of_inRange {cfg : Config} {s : State} {k : Nat} {v : Byte} (h : InRange (operandAddr cfg s k)) :
    operandByte cfg s k v = .ok v := by
  rw [operandByte, inRange_of h, if_pos rfl]

theorem operandByte_of_not_inRange {cfg : Config} {s : State} {k : Nat} {v : Byte}
    (h : ¬ InRange (operandAddr cfg s k)) : operandByte cfg s k v = .error (operandAddr cfg s k) := by
  rw [operandByte, inRange_of_not h]
  rfl

@[simp] theorem operandAddr_params (s : State) (k : Nat) : operandAddr params s k = ((s.pc.toNat + k : Nat) : Int) := rfl

/-- The operand is always a byte read at the effective address, which exists, or, for Immediate, the operand byte itself
(R117). -/
theorem loadOperand_cases {s : State} {ea : Int} {p : Operand} (h : loadOperand s ea = .ok p) :
    InRange ea ∧ p = ⟨s.mem.read ea.toNat, some ea⟩ := by
  by_cases hr : InRange ea
  · rw [loadOperand_of_inRange hr] at h
    exact ⟨hr, (Except.ok.inj h).symm⟩
  · rw [loadOperand_of_not_inRange hr] at h
    cases h

/-- What a bind of the resolver that answers went through. -/
theorem bind_eq_ok {α β : Type} {x : Except Int α} {f : α → Except Int β} {r : β} (h : (x >>= f) = .ok r) :
    ∃ a, x = .ok a ∧ f a = .ok r := by
  cases x with
  | error e => cases h
  | ok a => exact ⟨a, rfl, h⟩

/-- An effective address that resolves exists (R118). -/
theorem resolve_ea_inRange {cfg : Config} {mode : Mode} {o1 o2 : Byte} {s : State} {m : Byte} {ea : Int}
    (h : resolve cfg mode o1 o2 s = .ok ⟨m, some ea⟩) : InRange ea := by
  have lo : ∀ e, loadOperand s e = .ok ⟨m, some ea⟩ → InRange ea := fun e h => by
    obtain ⟨hr, hp⟩ := loadOperand_cases h
    cases hp
    exact hr
  cases mode <;> simp only [resolve, resolveImm, resolveAbs, resolveZp, resolveZpIndexed, resolveAbsIndexed, resolveRel,
    resolveIzx, resolveIzy, resolveInd] at h
  · cases h
  · obtain ⟨b, hb, h⟩ := bind_eq_ok h
    cases h
    by_contra hn
    rw [operandByte_of_not_inRange hn] at hb
    cases hb
  all_goals first
    | (obtain ⟨b, -, h⟩ := bind_eq_ok h; exact lo _ h)
    | (obtain ⟨b, -, h⟩ := bind_eq_ok h; obtain ⟨c, -, h⟩ := bind_eq_ok h; exact lo _ h)
    | (obtain ⟨b, -, h⟩ := bind_eq_ok h; obtain ⟨c, -, h⟩ := bind_eq_ok h; obtain ⟨d, -, h⟩ := bind_eq_ok h; exact lo _ h)
    | cases h

/-! The instruction forms -/

/-- Everything an accumulator form can do: take the address fault, or complete its effect. -/
theorem readForm_cases {cfg : Config} {mode : Mode} {l c : Nat} {f : Byte → State → State} {o1 o2 : Byte} {s t : State}
    (h : readForm cfg mode l c f o1 o2 s = .next t) :
    (∃ a, resolve cfg mode o1 o2 s = .error a ∧ t = s.takeFault (.addressOutOfRange a s.pc)) ∨
    (∃ p, resolve cfg mode o1 o2 s = .ok p ∧ t = (f p.value s).complete cfg l c) := by
  unfold readForm at h
  split at h
  · next a ha => exact .inl ⟨a, ha, (Host.Outcome.next.inj h).symm⟩
  · next p hp => exact .inr ⟨p, hp, (Host.Outcome.next.inj h).symm⟩

/-- Everything a memory-mode ASL can do: take the address fault of its resolution or of its store, or store and complete. -/
theorem aslMemoryForm_cases {cfg : Config} {mode : Mode} {l c : Nat} {o1 o2 : Byte} {s t : State}
    (h : aslMemoryForm cfg mode l c o1 o2 s = .next t) :
    (∃ a, t = s.takeFault (.addressOutOfRange a s.pc) ∧
      (resolve cfg mode o1 o2 s = .error a ∨
        ∃ m ea, resolve cfg mode o1 o2 s = .ok ⟨m, some ea⟩ ∧ a = aslTarget cfg m ea ∧ ¬ InRange a)) ∨
    (∃ m ea, resolve cfg mode o1 o2 s = .ok ⟨m, some ea⟩ ∧ InRange (aslTarget cfg m ea) ∧
      t = (aslFlags m (s.setMem (s.mem.write (aslTarget cfg m ea).toNat (aslResult m)))).complete cfg l c) := by
  unfold aslMemoryForm at h
  split at h
  · next a ha => exact .inl ⟨a, (Host.Outcome.next.inj h).symm, .inl ha⟩
  · next p hp =>
    obtain ⟨m, ea?⟩ := p
    cases ea? with
    | none => simp at h
    | some ea =>
      by_cases hr : InRange (aslTarget cfg m ea)
      · simp only [aslMemoryEffect, memWrite_of_inRange hr, bind, Except.bind] at h
        exact .inr ⟨m, ea, hp, hr, (Host.Outcome.next.inj h).symm⟩
      · simp only [aslMemoryEffect, memWrite_of_not_inRange hr, bind, Except.bind] at h
        exact .inl ⟨_, (Host.Outcome.next.inj h).symm, .inr ⟨m, ea, hp, rfl, hr⟩⟩

/-! An instruction and a step -/

/-- The meaning of every instruction is the table-driven one of its row: one case analysis over the 29 rows, cited
instead of repeated. -/
theorem exec_eq_executeEntry (i : Instr) (s : State) :
    exec i s = executeEntry params ⟨i.op, i.mode, i.length, cyclesOf i.op i.mode⟩ i.o1 i.o2 s := by
  cases i <;> simp only [exec, execAdcImm, execAdcZp, execAdcZpx, execAdcAbs, execAdcAbx, execAdcAby, execAdcIzx, execAdcIzy,
    execAndImm, execAndZp, execAndZpx, execAndAbs, execAndAbx, execAndAby, execAndIzx, execAndIzy,
    execLdaImm, execLdaZp, execLdaZpx, execLdaAbs, execLdaAbx, execLdaAby, execLdaIzx, execLdaIzy,
    execAslAcc, execAslZp, execAslZpx, execAslAbs, execAslAbx,
    executeEntry, Instr.op, Instr.mode, Instr.length, Mode.operandCount, Instr.o1, Instr.o2, Instr.operandBytes,
    cyclesOf, List.getD_cons_zero, List.getD_cons_succ, List.getD_nil] <;> simp

/-- Everything an instruction can do, over its mode and its effect. -/
theorem exec_cases {i : Instr} {s t : State} (h : exec i s = .next t) :
    (∃ a, t = s.takeFault (.addressOutOfRange a s.pc) ∧ resolve params i.mode i.o1 i.o2 s = .error a) ∨
    (∃ p, resolve params i.mode i.o1 i.o2 s = .ok p ∧
      ((i.op = .adc ∧ t = (adcEffect p.value s).complete params i.length (cyclesOf i.op i.mode)) ∨
       (i.op = .and ∧ t = (andEffect p.value s).complete params i.length (cyclesOf i.op i.mode)) ∨
       (i.op = .lda ∧ t = (ldaEffect p.value s).complete params i.length (cyclesOf i.op i.mode)) ∨
       (i.op = .asl ∧ i.mode = .acc ∧ t = (aslAccEffect p.value s).complete params i.length (cyclesOf i.op i.mode)) ∨
       (i.op = .asl ∧ i.mode ≠ .acc ∧ ∃ ea, p.ea = some ea ∧ InRange ea ∧
        t = (aslFlags p.value (s.setMem (s.mem.write ea.toNat (aslResult p.value)))).complete params i.length
          (cyclesOf i.op i.mode)))) := by
  rw [exec_eq_executeEntry] at h
  cases hop : i.op with
  | adc =>
    simp only [executeEntry, hop] at h
    obtain ⟨a, ha, rfl⟩ | ⟨p, hp, rfl⟩ := readForm_cases h
    · exact .inl ⟨a, rfl, ha⟩
    · exact .inr ⟨p, hp, .inl ⟨rfl, rfl⟩⟩
  | and =>
    simp only [executeEntry, hop] at h
    obtain ⟨a, ha, rfl⟩ | ⟨p, hp, rfl⟩ := readForm_cases h
    · exact .inl ⟨a, rfl, ha⟩
    · exact .inr ⟨p, hp, .inr (.inl ⟨rfl, rfl⟩)⟩
  | lda =>
    simp only [executeEntry, hop] at h
    obtain ⟨a, ha, rfl⟩ | ⟨p, hp, rfl⟩ := readForm_cases h
    · exact .inl ⟨a, rfl, ha⟩
    · exact .inr ⟨p, hp, .inr (.inr (.inl ⟨rfl, rfl⟩))⟩
  | asl =>
    simp only [executeEntry, hop] at h
    split at h
    · next hm =>
      obtain ⟨a, ha, rfl⟩ | ⟨p, hp, rfl⟩ := readForm_cases h
      · exact .inl ⟨a, rfl, ha⟩
      · exact .inr ⟨p, hp, .inr (.inr (.inr (.inl ⟨rfl, hm, rfl⟩)))⟩
    · next hm =>
      obtain ⟨a, rfl, ha⟩ | ⟨m, ea, hp, hr, rfl⟩ := aslMemoryForm_cases h
      · obtain ha | ⟨m, ea, hp, rfl, hn⟩ := ha
        · exact .inl ⟨a, rfl, ha⟩
        · exact absurd (resolve_ea_inRange hp) hn
      · exact .inr ⟨_, hp, .inr (.inr (.inr (.inr ⟨rfl, hm, ea, rfl, hr, rfl⟩)))⟩

/-- Everything a step can do: nothing at all in Halted; the opcode fault; the instruction the decoder reads. -/
theorem step_cases (s : State) :
    (s.phase = .halted ∧ step s = .fault .halted) ∨
    (s.phase ≠ .halted ∧ (∃ e, fetchDecode s = .error e) ∧
      step s = .next (s.takeFault (.unsupportedOpcode (fetchByte params s 0) s.pc))) ∨
    (s.phase ≠ .halted ∧ ∃ i rest, fetchDecode s = .ok (i, rest) ∧ step s = exec i s) := by
  cases hp : s.phase with
  | halted => exact .inl ⟨rfl, by simp [step, hp]⟩
  | reset =>
    cases hd : fetchDecode s with
    | error e => exact .inr (.inl ⟨by simp, ⟨e, rfl⟩, by simp [step, hp, hd, raiseUndecoded, raiseOpcode]⟩)
    | ok r => exact .inr (.inr ⟨by simp, r.1, r.2, rfl, by simp [step, hp, hd]⟩)
  | running =>
    cases hd : fetchDecode s with
    | error e => exact .inr (.inl ⟨by simp, ⟨e, rfl⟩, by simp [step, hp, hd, raiseUndecoded, raiseOpcode]⟩)
    | ok r => exact .inr (.inr ⟨by simp, r.1, r.2, rfl, by simp [step, hp, hd]⟩)

end Sys2Proof.Machine
end

