-- ==== Sys2Proof/Laws/PerInstr.lean ====
section
/-! SUPPORT. Laws made per instruction. TableRow: an instruction is well formed, and the opcode table has, at its opcode
byte, an entry with its identifier, its mode and its length (spec/30_encoding.md R80, R85, R86). -/

namespace Sys2Proof.Laws.TableRow

/-- The row of an instruction is the one the table has at its opcode byte, with a positive cycle count. -/
def Statement (i : Instr) : Prop :=
  i.wf = true ∧ ∃ c, 0 < c ∧ lookupEntry opcodeTable i.opcode = some ⟨i.op, i.mode, i.length, c⟩

theorem adcImm (o1 : Byte) : Statement (.adcImm o1) := ⟨rfl, 2, by decide, rfl⟩
theorem adcZp (o1 : Byte) : Statement (.adcZp o1) := ⟨rfl, 3, by decide, rfl⟩
theorem adcZpx (o1 : Byte) : Statement (.adcZpx o1) := ⟨rfl, 4, by decide, rfl⟩
theorem adcAbs (o1 o2 : Byte) : Statement (.adcAbs o1 o2) := ⟨rfl, 4, by decide, rfl⟩
theorem adcAbx (o1 o2 : Byte) : Statement (.adcAbx o1 o2) := ⟨rfl, 4, by decide, rfl⟩
theorem adcAby (o1 o2 : Byte) : Statement (.adcAby o1 o2) := ⟨rfl, 4, by decide, rfl⟩
theorem adcIzx (o1 : Byte) : Statement (.adcIzx o1) := ⟨rfl, 6, by decide, rfl⟩
theorem adcIzy (o1 : Byte) : Statement (.adcIzy o1) := ⟨rfl, 5, by decide, rfl⟩
theorem andImm (o1 : Byte) : Statement (.andImm o1) := ⟨rfl, 2, by decide, rfl⟩
theorem andZp (o1 : Byte) : Statement (.andZp o1) := ⟨rfl, 3, by decide, rfl⟩
theorem andZpx (o1 : Byte) : Statement (.andZpx o1) := ⟨rfl, 4, by decide, rfl⟩
theorem andAbs (o1 o2 : Byte) : Statement (.andAbs o1 o2) := ⟨rfl, 4, by decide, rfl⟩
theorem andAbx (o1 o2 : Byte) : Statement (.andAbx o1 o2) := ⟨rfl, 4, by decide, rfl⟩
theorem andAby (o1 o2 : Byte) : Statement (.andAby o1 o2) := ⟨rfl, 4, by decide, rfl⟩
theorem andIzx (o1 : Byte) : Statement (.andIzx o1) := ⟨rfl, 6, by decide, rfl⟩
theorem andIzy (o1 : Byte) : Statement (.andIzy o1) := ⟨rfl, 5, by decide, rfl⟩
theorem ldaImm (o1 : Byte) : Statement (.ldaImm o1) := ⟨rfl, 2, by decide, rfl⟩
theorem ldaZp (o1 : Byte) : Statement (.ldaZp o1) := ⟨rfl, 3, by decide, rfl⟩
theorem ldaZpx (o1 : Byte) : Statement (.ldaZpx o1) := ⟨rfl, 4, by decide, rfl⟩
theorem ldaAbs (o1 o2 : Byte) : Statement (.ldaAbs o1 o2) := ⟨rfl, 4, by decide, rfl⟩
theorem ldaAbx (o1 o2 : Byte) : Statement (.ldaAbx o1 o2) := ⟨rfl, 4, by decide, rfl⟩
theorem ldaAby (o1 o2 : Byte) : Statement (.ldaAby o1 o2) := ⟨rfl, 4, by decide, rfl⟩
theorem ldaIzx (o1 : Byte) : Statement (.ldaIzx o1) := ⟨rfl, 6, by decide, rfl⟩
theorem ldaIzy (o1 : Byte) : Statement (.ldaIzy o1) := ⟨rfl, 5, by decide, rfl⟩
theorem aslAcc : Statement (.aslAcc) := ⟨rfl, 2, by decide, rfl⟩
theorem aslZp (o1 : Byte) : Statement (.aslZp o1) := ⟨rfl, 5, by decide, rfl⟩
theorem aslZpx (o1 : Byte) : Statement (.aslZpx o1) := ⟨rfl, 6, by decide, rfl⟩
theorem aslAbs (o1 o2 : Byte) : Statement (.aslAbs o1 o2) := ⟨rfl, 6, by decide, rfl⟩
theorem aslAbx (o1 o2 : Byte) : Statement (.aslAbx o1 o2) := ⟨rfl, 7, by decide, rfl⟩

end Sys2Proof.Laws.TableRow
end

