-- ==== Sys2Proof/Tests/Slice0.lean ====
section
/-! SUPPORT. Small tests, one step or one function each, with their values from the worked examples of spec/ and from
spec/95_test_vectors.md, and one witness for the hypotheses of every statement that has some. -/

open Sys2Proof Sys2Proof.Machine

namespace Sys2Proof.Tests

/-- The reset state with another PC and the given runs of bytes in memory. -/
def core (pc : Word) (runs : List (Nat × List Byte)) : State :=
  { State.reset with pc := pc, mem := runs.foldl (fun m r => m.writeBytes r.1 r.2) [] }

/-- What a test looks at after a step: A, then C Z V N, then PC and CYC. -/
structure Seen where
  a : Byte
  c : Bool
  z : Bool
  v : Bool
  n : Bool
  pc : Word
  cyc : Nat
deriving DecidableEq, Repr

/-- The state a step ends in, if it answers one. -/
def after (r : Result) : Option State :=
  match r with
  | .next t => some t
  | .fault _ => none
  | .refused _ => none

/-- The outcome of a step that ends in Running. -/
def seen (r : Result) : Option Seen :=
  match after r with
  | some t => if t.phase = .running ∧ t.fault = none then some ⟨t.a, t.flagC, t.flagZ, t.flagV, t.flagN, t.pc, t.cyc⟩ else none
  | none => none

/-- The outcome of a step that ends in Running, with one cell of memory. -/
def seenCell (r : Result) (a : Nat) : Option (Seen × Byte) :=
  match after r, seen r with
  | some t, some x => some (x, t.mem.read a)
  | _, _ => none

/-- The step took the fault of this record and changed nothing else (95_test_vectors.md section 4). -/
def faultedWith (s : State) (r : FaultRecord) : Bool :=
  match step s with
  | .next t => decide (t = { s with fault := some r, phase := .halted }) && decide (stepOutput s = .fault r)
  | .fault _ => false
  | .refused _ => false

/-! Well-formedness: every check refuses an ill-formed term (30_encoding.md R80, R85, R94). `Instr.wf` holds of every term of
`Instr`, whose constructors carry exactly the operand bytes their form has. -/

theorem test_entry_length_zero_refused : Entry.wf ⟨.lda, .imm, 0, 2⟩ = false := by decide
theorem test_entry_length_four_refused : Entry.wf ⟨.lda, .abs, 4, 4⟩ = false := by decide
theorem test_entry_cycles_zero_refused : Entry.wf ⟨.lda, .imm, 2, 0⟩ = false := by decide
theorem test_entry_asl_implied_refused : Entry.wf ⟨.asl, .imp, 1, 2⟩ = false := by decide
theorem test_entry_lda_implied_accepted : Entry.wf ⟨.lda, .imp, 1, 2⟩ = true := by decide
theorem test_table_two_entries_for_one_opcode_refused :
    tableWf [(0xA9, ⟨.lda, .imm, 2, 2⟩), (0xA9, ⟨.and, .imm, 2, 2⟩)] = false := by decide
theorem test_config_with_illegal_entry_refused :
    Config.wf { params with opcodeTable := [(0x0A, ⟨.asl, .imp, 1, 2⟩)] } = false := by decide
theorem test_config_with_vector_past_the_top_refused : Config.wf { params with resetVector := 0xFFFF } = false := by decide
theorem test_params_accepted : params.wf = true := by decide
theorem test_memory_out_of_order_refused : Memory.wf [(2, 1), (1, 1)] = false := by decide
theorem test_memory_with_a_zero_cell_refused : Memory.wf [(2, 0)] = false := by decide
theorem test_memory_past_the_top_refused : Memory.wf [(65536, 1)] = false := by decide

/-! Decoding: one word per instruction, written out from the table of 30_encoding.md R86 and the operand order of R80, R84. -/

theorem test_decode_adcImm : decode [0x69, 0x50] = .ok (.adcImm 0x50, []) := rfl
theorem test_decode_adcZp : decode [0x65, 0x10] = .ok (.adcZp 0x10, []) := rfl
theorem test_decode_adcZpx : decode [0x75, 0xFF] = .ok (.adcZpx 0xFF, []) := rfl
theorem test_decode_adcAbs : decode [0x6D, 0x34, 0x12] = .ok (.adcAbs 0x34 0x12, []) := rfl
theorem test_decode_adcAbx : decode [0x7D, 0xFF, 0x12] = .ok (.adcAbx 0xFF 0x12, []) := rfl
theorem test_decode_adcAby : decode [0x79, 0xF8, 0x20] = .ok (.adcAby 0xF8 0x20, []) := rfl
theorem test_decode_adcIzx : decode [0x61, 0xFE] = .ok (.adcIzx 0xFE, []) := rfl
theorem test_decode_adcIzy : decode [0x71, 0xFF] = .ok (.adcIzy 0xFF, []) := rfl
theorem test_decode_andImm : decode [0x29, 0x8F] = .ok (.andImm 0x8F, []) := rfl
theorem test_decode_andZp : decode [0x25, 0x80] = .ok (.andZp 0x80, []) := rfl
theorem test_decode_andZpx : decode [0x35, 0xF8] = .ok (.andZpx 0xF8, []) := rfl
theorem test_decode_andAbs : decode [0x2D, 0x00, 0xC0] = .ok (.andAbs 0x00 0xC0, []) := rfl
theorem test_decode_andAbx : decode [0x3D, 0x01, 0x10] = .ok (.andAbx 0x01 0x10, []) := rfl
theorem test_decode_andAby : decode [0x39, 0xFE, 0x0F] = .ok (.andAby 0xFE 0x0F, []) := rfl
theorem test_decode_andIzx : decode [0x21, 0xFE] = .ok (.andIzx 0xFE, []) := rfl
theorem test_decode_andIzy : decode [0x31, 0x20] = .ok (.andIzy 0x20, []) := rfl
theorem test_decode_ldaImm : decode [0xA9, 0x00] = .ok (.ldaImm 0x00, []) := rfl
theorem test_decode_ldaZp : decode [0xA5, 0x42] = .ok (.ldaZp 0x42, []) := rfl
theorem test_decode_ldaZpx : decode [0xB5, 0xFF] = .ok (.ldaZpx 0xFF, []) := rfl
theorem test_decode_ldaAbs : decode [0xAD, 0xCD, 0xAB] = .ok (.ldaAbs 0xCD 0xAB, []) := rfl
theorem test_decode_ldaAbx : decode [0xBD, 0xF0, 0xFF] = .ok (.ldaAbx 0xF0 0xFF, []) := rfl
theorem test_decode_ldaAby : decode [0xB9, 0x01, 0x02] = .ok (.ldaAby 0x01 0x02, []) := rfl
theorem test_decode_ldaIzx : decode [0xA1, 0x00] = .ok (.ldaIzx 0x00, []) := rfl
theorem test_decode_ldaIzy : decode [0xB1, 0x10] = .ok (.ldaIzy 0x10, []) := rfl
theorem test_decode_aslAcc : decode [0x0A] = .ok (.aslAcc, []) := rfl
theorem test_decode_aslZp : decode [0x06, 0x40] = .ok (.aslZp 0x40, []) := rfl
theorem test_decode_aslZpx : decode [0x16, 0xFE] = .ok (.aslZpx 0xFE, []) := rfl
theorem test_decode_aslAbs : decode [0x0E, 0x00, 0x30] = .ok (.aslAbs 0x00 0x30, []) := rfl
theorem test_decode_aslAbx : decode [0x1E, 0xFF, 0x2F] = .ok (.aslAbx 0xFF 0x2F, []) := rfl
theorem test_decode_unsupported : decode [0xEA, 0x00, 0x00] = .error (.unsupportedOpcode 0xEA) := rfl
theorem test_decode_nothing : decode [] = .error .noBytes := rfl
theorem test_decode_missing_operand : decode [0xAD, 0xCD] = .error (.missingOperand 0xAD) := rfl
theorem test_table_word_low_byte_first : decodeTableWord 24 0xABCDAD = some (.ldaAbs 0xCD 0xAB) := rfl
theorem test_table_word_operands_zero : decodeTableWord 8 0x12AD = some (.ldaAbs 0x00 0x00) := rfl
theorem test_table_word_unsupported : decodeTableWord 8 0x00 = none := rfl

/-! One step of each instruction: the worked example of its own rule. -/

/-- R151. -/
theorem test_adcImm :
    seen (step { core 0x0200 [(0x0200, [0x69, 0x50])] with a := 0x50 }) =
      some ⟨0xA0, false, false, true, true, 0x0202, 2⟩ := by decide
/-- R152. -/
theorem test_adcZp :
    seen (step { core 0x0200 [(0x0200, [0x65, 0x10]), (0x0010, [0xFF])] with a := 0x01, flagC := true }) =
      some ⟨0x01, true, false, false, false, 0x0202, 3⟩ := by decide
/-- R153. -/
theorem test_adcZpx :
    seen (step { core 0x0200 [(0x0200, [0x75, 0xFF]), (0x0001, [0x22]), (0x0101, [0x99])] with a := 0x10, x := 0x02 }) =
      some ⟨0x32, false, false, false, false, 0x0202, 4⟩ := by decide
/-- R154. -/
theorem test_adcAbs :
    seen (step { core 0x0200 [(0x0200, [0x6D, 0x34, 0x12]), (0x1234, [0x80])] with a := 0x80 }) =
      some ⟨0x00, true, true, true, false, 0x0203, 4⟩ := by decide
/-- R155. -/
theorem test_adcAbx :
    seen (step { core 0x0200 [(0x0200, [0x7D, 0xFF, 0x12]), (0x1300, [0x01])] with a := 0x7F, x := 0x01 }) =
      some ⟨0x80, false, false, true, true, 0x0203, 4⟩ := by decide
/-- R156. -/
theorem test_adcAby :
    seen (step { core 0x0200 [(0x0200, [0x79, 0xF8, 0x20])] with a := 0x00, y := 0x10 }) =
      some ⟨0x00, false, true, false, false, 0x0203, 4⟩ := by decide
/-- R157. -/
theorem test_adcIzx :
    seen (step { core 0x0200 [(0x0200, [0x61, 0xFE]), (0x0002, [0x00, 0x30]), (0x3000, [0x0A])] with a := 0x05, x := 0x04, flagC := true }) =
      some ⟨0x10, false, false, false, false, 0x0202, 6⟩ := by decide
/-- R158. -/
theorem test_adcIzy :
    seen (step { core 0x0200 [(0x0200, [0x71, 0xFF]), (0x00FF, [0xFF]), (0x0000, [0x40]), (0x4100, [0x20])] with a := 0xF0, y := 0x01 }) =
      some ⟨0x10, true, false, false, false, 0x0202, 5⟩ := by decide
/-- R171. -/
theorem test_andImm :
    seen (step { core 0x0200 [(0x0200, [0x29, 0x8F])] with a := 0xF0, flagC := true, flagV := true }) =
      some ⟨0x80, true, false, true, true, 0x0202, 2⟩ := by decide
/-- R172. -/
theorem test_andZp :
    seen (step { core 0x0200 [(0x0200, [0x25, 0x80]), (0x0080, [0xF0])] with a := 0x0F }) =
      some ⟨0x00, false, true, false, false, 0x0202, 3⟩ := by decide
/-- R173. -/
theorem test_andZpx :
    seen (step { core 0x0200 [(0x0200, [0x35, 0xF8]), (0x0008, [0x7E])] with a := 0xFF, x := 0x10 }) =
      some ⟨0x7E, false, false, false, false, 0x0202, 4⟩ := by decide
/-- R174. -/
theorem test_andAbs :
    seen (step { core 0x0200 [(0x0200, [0x2D, 0x00, 0xC0]), (0xC000, [0x55])] with a := 0xAA }) =
      some ⟨0x00, false, true, false, false, 0x0203, 4⟩ := by decide
/-- R175. -/
theorem test_andAbx :
    seen (step { core 0x0200 [(0x0200, [0x3D, 0x01, 0x10]), (0x1100, [0x81])] with a := 0xC3, x := 0xFF }) =
      some ⟨0x81, false, false, false, true, 0x0203, 4⟩ := by decide
/-- R176. -/
theorem test_andAby :
    seen (step { core 0x0200 [(0x0200, [0x39, 0xFE, 0x0F]), (0x1000, [0x18])] with a := 0x3C, y := 0x02 }) =
      some ⟨0x18, false, false, false, false, 0x0203, 4⟩ := by decide
/-- R177. -/
theorem test_andIzx :
    seen (step { core 0x0200 [(0x0200, [0x21, 0xFE]), (0x00FF, [0x34]), (0x0000, [0x12]), (0x1234, [0x80])] with a := 0xFF, x := 0x01 }) =
      some ⟨0x80, false, false, false, true, 0x0202, 6⟩ := by decide
/-- R178. -/
theorem test_andIzy :
    seen (step { core 0x0200 [(0x0200, [0x31, 0x20]), (0x0020, [0x80, 0x50]), (0x5100, [0x0F])] with a := 0x77, y := 0x80 }) =
      some ⟨0x07, false, false, false, false, 0x0202, 5⟩ := by decide
/-- R191. -/
theorem test_ldaImm :
    seen (step { core 0x0200 [(0x0200, [0xA9, 0x00])] with a := 0x55 }) =
      some ⟨0x00, false, true, false, false, 0x0202, 2⟩ := by decide
/-- R192. -/
theorem test_ldaZp :
    seen (step (core 0x0200 [(0x0200, [0xA5, 0x42]), (0x0042, [0x80])])) =
      some ⟨0x80, false, false, false, true, 0x0202, 3⟩ := by decide
/-- R193. -/
theorem test_ldaZpx :
    seen (step { core 0x0200 [(0x0200, [0xB5, 0xFF]), (0x0001, [0x7F]), (0x0101, [0xEE])] with x := 0x02 }) =
      some ⟨0x7F, false, false, false, false, 0x0202, 4⟩ := by decide
/-- R194. -/
theorem test_ldaAbs :
    seen (step (core 0x0200 [(0x0200, [0xAD, 0xCD, 0xAB]), (0xABCD, [0x01])])) =
      some ⟨0x01, false, false, false, false, 0x0203, 4⟩ := by decide
/-- R195. -/
theorem test_ldaAbx :
    seen (step { core 0x0200 [(0x0200, [0xBD, 0xF0, 0xFF]), (0xFFFF, [0xC3])] with x := 0x0F }) =
      some ⟨0xC3, false, false, false, true, 0x0203, 4⟩ := by decide
/-- R196. -/
theorem test_ldaAby :
    seen (step { core 0x0200 [(0x0200, [0xB9, 0x01, 0x02]), (0x0300, [0x99])] with y := 0xFF }) =
      some ⟨0x99, false, false, false, true, 0x0203, 4⟩ := by decide
/-- R197. -/
theorem test_ldaIzx :
    seen (step { core 0x0200 [(0x0200, [0xA1, 0x00]), (0x00FF, [0x00]), (0x0000, [0x80]), (0x8000, [0x3C])] with x := 0xFF }) =
      some ⟨0x3C, false, false, false, false, 0x0202, 6⟩ := by decide
/-- R198. -/
theorem test_ldaIzy :
    seen (step { core 0x0200 [(0x0200, [0xB1, 0x10]), (0x0010, [0xFC, 0x0F]), (0x1000, [0xAB])] with y := 0x04 }) =
      some ⟨0xAB, false, false, false, true, 0x0202, 5⟩ := by decide
/-- R211. -/
theorem test_aslAcc :
    seen (step { core 0x0200 [(0x0200, [0x0A])] with a := 0x81 }) =
      some ⟨0x02, true, false, false, false, 0x0201, 2⟩ := by decide
/-- R212, the pinning test of R216 and V-ASL-M1. -/
theorem test_aslZp :
    seenCell (step { core 0x0200 [(0x0200, [0x06, 0x40]), (0x0040, [0x80]), (0x0080, [0x11])] with a := 0x33 }) 0x0040 =
      some (⟨0x33, true, true, false, false, 0x0202, 5⟩, 0x00) := by decide
/-- R213. -/
theorem test_aslZpx :
    seenCell (step { core 0x0200 [(0x0200, [0x16, 0xFE]), (0x0003, [0x41])] with x := 0x05 }) 0x0003 =
      some (⟨0x00, false, false, false, true, 0x0202, 6⟩, 0x82) := by decide
/-- R214. -/
theorem test_aslAbs :
    seenCell (step { core 0x0200 [(0x0200, [0x0E, 0x00, 0x30]), (0x3000, [0x7F])] with flagC := true }) 0x3000 =
      some (⟨0x00, false, false, false, true, 0x0203, 6⟩, 0xFE) := by decide
/-- R215. -/
theorem test_aslAbx :
    seenCell (step { core 0x0200 [(0x0200, [0x1E, 0xFF, 0x2F]), (0x3000, [0xFF])] with x := 0x01 }) 0x3000 =
      some (⟨0x00, true, false, false, true, 0x0203, 7⟩, 0xFE) := by decide
/-- V-ASL-M1: the cell at the operand's value keeps its byte. -/
theorem test_aslZp_not_at_the_operand_value :
    (seenCell (step { core 0x0200 [(0x0200, [0x06, 0x40]), (0x0040, [0x80]), (0x0080, [0x11])] with a := 0x33 }) 0x0080).map
      Prod.snd = some 0x11 := by decide

/-! The tables of results (95_test_vectors.md V-ADC, V-AND, V-LDA, V-ASL). -/

/-- A, m, C, then the untruncated sum, A, C, Z, V, N: rows VA1 to VA26. -/
def adcVectors : List (Byte × Byte × Bool × Nat × Byte × Bool × Bool × Bool × Bool) :=
  [(0x00, 0x00, false, 0x000, 0x00, false, true, false, false),
    (0x00, 0x00, true, 0x001, 0x01, false, false, false, false),
    (0xFF, 0x01, false, 0x100, 0x00, true, true, false, false),
    (0xFF, 0xFF, true, 0x1FF, 0xFF, true, false, false, true),
    (0x7F, 0x01, false, 0x080, 0x80, false, false, true, true),
    (0x7F, 0x00, true, 0x080, 0x80, false, false, true, true),
    (0x80, 0xFF, false, 0x17F, 0x7F, true, false, true, false),
    (0x80, 0x80, false, 0x100, 0x00, true, true, true, false),
    (0x80, 0x7F, true, 0x100, 0x00, true, true, false, false)] ++
  [(0x3F, 0x40, true, 0x080, 0x80, false, false, true, true),
    (0x40, 0x40, false, 0x080, 0x80, false, false, true, true),
    (0xC0, 0xC0, false, 0x180, 0x80, true, false, false, true),
    (0xBF, 0xC0, false, 0x17F, 0x7F, true, false, true, false),
    (0x01, 0xFF, false, 0x100, 0x00, true, true, false, false),
    (0x09, 0x01, false, 0x00A, 0x0A, false, false, false, false),
    (0xFF, 0x00, true, 0x100, 0x00, true, true, false, false),
    (0x7F, 0x7F, true, 0x0FF, 0xFF, false, false, true, true),
    (0x80, 0x7F, false, 0x0FF, 0xFF, false, false, false, true)] ++
  [(0x50, 0x50, false, 0x0A0, 0xA0, false, false, true, true),
    (0x50, 0x10, false, 0x060, 0x60, false, false, false, false),
    (0xD0, 0x90, false, 0x160, 0x60, true, false, true, false),
    (0xD0, 0xD0, false, 0x1A0, 0xA0, true, false, false, true),
    (0x50, 0xD0, false, 0x120, 0x20, true, false, false, false),
    (0x50, 0x90, false, 0x0E0, 0xE0, false, false, false, true),
    (0xD0, 0x10, false, 0x0E0, 0xE0, false, false, false, true),
    (0xD0, 0x50, false, 0x120, 0x20, true, false, false, false)]

theorem test_adc_vectors : adcVectors.all (fun (a, m, c, t, a', c', z', v', n') =>
    adcSum a m c == t && adcResult a m c == a' && adcCarry a m c == c' && zeroFlag (adcResult a m c) == z' &&
      adcOverflow a m c == v' && negativeFlag (adcResult a m c) == n') = true := by decide

/-- A, m, then A, Z, N: rows VN1 to VN10. -/
def andVectors : List (Byte × Byte × Byte × Bool × Bool) :=
  [(0xFF, 0xFF, 0xFF, false, true),
    (0xFF, 0x00, 0x00, true, false),
    (0x00, 0xFF, 0x00, true, false),
    (0xAA, 0x55, 0x00, true, false),
    (0xF0, 0x8F, 0x80, false, true),
    (0x7F, 0xFF, 0x7F, false, false),
    (0x80, 0x80, 0x80, false, true),
    (0x01, 0x01, 0x01, false, false),
    (0x0F, 0xF0, 0x00, true, false),
    (0xFF, 0x80, 0x80, false, true)]

theorem test_and_vectors : andVectors.all (fun (a, m, a', z', n') =>
    andResult a m == a' && zeroFlag (andResult a m) == z' && negativeFlag (andResult a m) == n') = true := by decide

/-- m, then A, Z, N: rows VL1 to VL5. -/
def ldaVectors : List (Byte × Byte × Bool × Bool) :=
  [(0x00, 0x00, true, false), (0x01, 0x01, false, false), (0x7F, 0x7F, false, false), (0x80, 0x80, false, true), (0xFF, 0xFF, false, true)]

theorem test_lda_vectors : ldaVectors.all (fun (m, a', z', n') =>
    ldaResult m == a' && zeroFlag (ldaResult m) == z' && negativeFlag (ldaResult m) == n') = true := by decide

/-- m, then r, C, Z, N: rows VS1 to VS10. -/
def aslVectors : List (Byte × Byte × Bool × Bool × Bool) :=
  [(0x00, 0x00, false, true, false),
    (0x01, 0x02, false, false, false),
    (0x40, 0x80, false, false, true),
    (0x7F, 0xFE, false, false, true),
    (0x80, 0x00, true, true, false),
    (0x81, 0x02, true, false, false),
    (0xC0, 0x80, true, false, true),
    (0xFF, 0xFE, true, false, true),
    (0x55, 0xAA, false, false, true),
    (0xAA, 0x54, true, false, false)]

theorem test_asl_vectors : aslVectors.all (fun (m, r, c', z', n') =>
    aslResult m == r && aslCarry m == c' && zeroFlag (aslResult m) == z' && negativeFlag (aslResult m) == n') = true := by
  decide

/-! The resolver (95_test_vectors.md section 3), the modes that no row of the table uses among them. -/

/-- What a mode resolves to in a state: the operand and the effective address, or the address that is out of range. -/
def resolved (mode : Mode) (s : State) : Operand ⊕ Int :=
  match resolveAtPc params mode s with
  | .ok p => .inl p
  | .error a => .inr a

/-- VR1. -/
theorem test_resolve_vr1 : resolved .acc { core 0x0300 [] with a := 0x5A } = .inl ⟨0x5A, none⟩ := by decide
/-- VR2. -/
theorem test_resolve_vr2 : resolved .imp { core 0x0300 [] with a := 0x5A } = .inl ⟨0x00, none⟩ := by decide
/-- VR3. -/
theorem test_resolve_vr3 : resolved .imm (core 0x0300 [(0x0301, [0x42])]) = .inl ⟨0x42, some 0x0301⟩ := by decide
/-- VR6. -/
theorem test_resolve_vr6 : resolved .zpy { core 0x0300 [(0x0301, [0xFF]), (0x0001, [0xAB]), (0x0101, [0xEE])] with y := 0x02 } = .inl ⟨0xAB, some 0x0001⟩ := by decide
/-- VR7. -/
theorem test_resolve_vr7 : resolved .abs (core 0xFFFD [(0xFFFE, [0x34, 0x12]), (0x1234, [0x56])]) = .inl ⟨0x56, some 0x1234⟩ := by decide
/-- VR10. -/
theorem test_resolve_vr10 : resolved .rel (core 0x0010 [(0x0011, [0x7F]), (0x0091, [0x5A])]) = .inl ⟨0x5A, some 0x0091⟩ := by decide
/-- VR11. -/
theorem test_resolve_vr11 : resolved .rel (core 0x0010 [(0x0011, [0x80])]) = .inr (-110) := by decide
/-- VR12. -/
theorem test_resolve_vr12 : resolved .rel (core 0x1000 [(0x1001, [0x80]), (0x0F82, [0x77])]) = .inl ⟨0x77, some 0x0F82⟩ := by decide
/-- VR13. -/
theorem test_resolve_vr13 : resolved .rel (core 0xFFF0 [(0xFFF1, [0x7F])]) = .inr 65649 := by decide
/-- VR14. -/
theorem test_resolve_vr14 : resolved .rel (core 0x1000 [(0x1000, [0xC3, 0xFE])]) = .inl ⟨0xC3, some 0x1000⟩ := by decide
/-- VR15. -/
theorem test_resolve_vr15 : resolved .izx { core 0x0300 [(0x0301, [0xFF]), (0x00FF, [0xCD]), (0x0000, [0xAB]), (0xABCD, [0x44])] with x := 0x00 } = .inl ⟨0x44, some 0xABCD⟩ := by decide
/-- VR17. -/
theorem test_resolve_vr17 : resolved .izy { core 0x0300 [(0x0301, [0xFF]), (0x00FF, [0x01]), (0x0000, [0x20]), (0x2100, [0x66])] with y := 0xFF } = .inl ⟨0x66, some 0x2100⟩ := by decide
/-- VR19. -/
theorem test_resolve_vr19 : resolved .ind (core 0x0300 [(0x0301, [0xFF, 0xFF]), (0xFFFF, [0x34]), (0x0000, [0x12]), (0x1234, [0x99])]) = .inl ⟨0x99, some 0x1234⟩ := by decide
/-- VR20. -/
theorem test_resolve_vr20 : resolved .ind (core 0x0300 [(0x0301, [0xFF, 0x10]), (0x10FF, [0x00, 0x20]), (0x1000, [0x11]), (0x2000, [0x77])]) = .inl ⟨0x77, some 0x2000⟩ := by decide
/-- VR23. -/
theorem test_resolve_vr23 : resolved .abx { core 0x0300 [(0x0301, [0xFF, 0xFF])] with x := 0xFF } = .inr 65790 := by decide

/-! Faults (95_test_vectors.md section 4): the record, and nothing else changed. -/

/-- VF1. -/
theorem test_fault_vf1 :
    faultedWith { core 0x0207 [(0x0207, [0x00])] with a := 0x00, flagC := true, flagZ := true, flagV := true }
      (.unsupportedOpcode 0x00 0x0207) = true := by decide
/-- VF2. -/
theorem test_fault_vf2 :
    faultedWith (core 0xFFFF [(0xFFFF, [0xEA])])
      (.unsupportedOpcode 0xEA 0xFFFF) = true := by decide
/-- VF3. -/
theorem test_fault_vf3 :
    faultedWith { core 0xFFFF [(0xFFFF, [0xA9])] with a := 0x12 }
      (.addressOutOfRange 65536 0xFFFF) = true := by decide
/-- VF4. -/
theorem test_fault_vf4 :
    faultedWith { core 0xFFFE [(0xFFFE, [0xAD, 0x00])] with a := 0x12 }
      (.addressOutOfRange 65536 0xFFFE) = true := by decide
/-- VF5. -/
theorem test_fault_vf5 :
    faultedWith { core 0x0200 [(0x0200, [0xBD, 0xFF, 0xFF])] with x := 0xFF }
      (.addressOutOfRange 65790 0x0200) = true := by decide
/-- VF6. -/
theorem test_fault_vf6 :
    faultedWith { core 0x0200 [(0x0200, [0xB9, 0xFF, 0xFF])] with y := 0x01 }
      (.addressOutOfRange 65536 0x0200) = true := by decide
/-- VF7. -/
theorem test_fault_vf7 :
    faultedWith { core 0x0200 [(0x0200, [0xB1, 0x40]), (0x0040, [0xFF, 0xFF])] with y := 0x01 }
      (.addressOutOfRange 65536 0x0200) = true := by decide
/-- VF8. -/
theorem test_fault_vf8 :
    faultedWith { core 0x0200 [(0x0200, [0x1E, 0x01, 0xFF])] with x := 0xFF }
      (.addressOutOfRange 65536 0x0200) = true := by decide
/-- VF9. -/
theorem test_fault_vf9 :
    faultedWith { core 0xFFFE [(0xFFFE, [0x7D, 0x00])] with x := 0xFF }
      (.addressOutOfRange 65536 0xFFFE) = true := by decide

/-- A core that has stopped: FAULT holds a record (VF10). -/
def stopped : State := (core 0x0207 []).takeFault (.unsupportedOpcode 0x00 0x0207)

theorem test_stopped_takes_no_step : step stopped = .fault .halted ∧ stepOutput stopped = .none := ⟨rfl, rfl⟩
theorem test_stopped_ignores_reset : hostReset params stopped = stopped := rfl

/-! The top of memory (95_test_vectors.md P5), reset and loading. -/

/-- P5 (a), its first step: PC wraps to 0x0000. -/
theorem test_pc_wraps : seen (step (core 0xFFFE [(0xFFFE, [0xA9, 0x80])])) =
    some ⟨0x80, false, false, false, true, 0x0000, 2⟩ := by decide
/-- P5 (c): a one-byte instruction at the top. -/
theorem test_asl_at_the_top : seen (step { core 0xFFFF [(0xFFFF, [0x0A])] with a := 0x81 }) =
    some ⟨0x02, true, false, false, false, 0x0000, 2⟩ := by decide
/-- R161 and V-ADC (a): the same sum with D set. -/
theorem test_adc_ignores_decimal : (after (step { core 0x0200 [(0x0200, [0x69, 0x01])] with a := 0x09, flagD := true })).map
    (fun t => (t.a, t.flagD)) = some (0x0A, true) := by decide
/-- P1: after `load` of the vector and the image, `reset()` starts at 0x0200. -/
theorem test_reset_reads_the_vector : (hostReset params (core 0x1234 [(0xFFFC, [0x00, 0x02])])).pc = 0x0200 ∧
    (hostReset params (core 0x1234 [(0xFFFC, [0x00, 0x02])])).sp = 0xFD ∧
    (hostReset params (core 0x1234 [(0xFFFC, [0x00, 0x02])])).mem.read 0xFFFD = 0x02 := by decide
/-- R5, R262: another RESET_VECTOR is where `reset()` reads. -/
theorem test_reset_reads_another_vector : (hostReset { params with resetVector := 0x0300 }
    (core 0x1234 [(0x0300, [0xCD, 0xAB]), (0xFFFC, [0x00, 0x02])])).pc = 0xABCD := by decide
/-- R39: CYC is taken modulo 2^64, and, under another CYC_WIDTH of R5, modulo that power of two. -/
theorem test_cyc_wraps : (seen (step { core 0x0200 [(0x0200, [0xA9, 0x00])] with cyc := 0xFFFFFFFFFFFFFFFF })).map
    Seen.cyc = some 1 := by decide
theorem test_cyc_wraps_at_another_width : (seen (stepWith { params with cycWidth := 8 }
    { core 0x0200 [(0x0200, [0xA9, 0x00])] with cyc := 0xFF })).map Seen.cyc = some 1 := by decide
/-- R261: power-on zeroes memory and ends a fault. -/
theorem test_power_on : powerOn params stopped = State.reset := rfl
/-- R266: the bytes of a load, at the top of memory, refused outside Reset and past the top. -/
theorem test_load : (after (hostLoad State.reset 0xFFFC [0x00, 0x02, 0x00, 0x07])).map
      (fun t => (t.mem.read 0xFFFC, t.mem.read 0xFFFD, t.mem.read 0xFFFF)) = some (0x00, 0x02, 0x07) := by decide
theorem test_load_outside_reset : hostLoad { State.reset with phase := .running } 0 [1] = .refused .loadOutsideReset := rfl
theorem test_load_past_the_top : hostLoad State.reset 0xFFFF [1, 2] = .refused .loadPastTop := rfl
/-- R61: clear zeroes every cell, the registers stay. -/
theorem test_clear : hostClear { core 0x0200 [(0x0200, [0x69])] with a := 0x05 } =
    .next { core 0x0200 [] with a := 0x05 } := rfl
/-- R43: a cell is seen by the host, and there is none past 0xFFFF. -/
theorem test_host_read : hostRead (core 0x0200 [(0xFFFF, [0x69])]) 0xFFFF = some 0x69 ∧
    hostRead (core 0x0200 []) 0x10000 = none := ⟨rfl, rfl⟩
/-- An instruction word placed for the next step runs right after reset: `LDA #$7F`, 30_encoding.md R92. -/
theorem test_placed_word_runs : seen (step (State.reset.withFetchWord 16 0x7FA9)) =
    some ⟨0x7F, false, false, false, false, 0x0002, 2⟩ := by decide
/-- R67: the accesses of a memory-mode ASL end with the write; those of a faulting step end at the bad address. -/
theorem test_accesses_of_asl : stepAccesses params (core 0x0200 [(0x0200, [0x06, 0x40])]) =
    [.read 0x0200, .read 0x0201, .read 0x0040, .write 0x0040] := by decide
theorem test_accesses_stop_at_the_bad_address : stepAccesses params { core 0xFFFE [(0xFFFE, [0x7D, 0x00])] with x := 0xFF } =
    [.read 0xFFFE, .read 0xFFFF, .read 65536] := by decide
/-- R53: a write is reduced modulo 256. -/
theorem test_write_masks : (match memWrite State.reset 0x0040 0x1FF with
    | .ok t => t.mem.read 0x0040
    | .error _ => 0x00) = 0xFF := by decide

/-! The parameters' alternatives (92_eei_decisions.md D1, D7, D8; 30_encoding.md R94). -/

/-- A legal configuration with other opcodes, among them the modes that the default table does not use. -/
def otherTable : Config := { params with opcodeTable :=
  [(0xEA, ⟨.lda, .imp, 1, 2⟩), (0x80, ⟨.lda, .rel, 2, 3⟩), (0x6C, ⟨.lda, .ind, 3, 5⟩), (0xB7, ⟨.adc, .zpy, 2, 4⟩)] }

theorem test_other_table_accepted : otherTable.wf = true := by decide
theorem test_lda_relative_loads_the_byte :
    seen (stepWith otherTable (core 0x0010 [(0x0010, [0x80, 0x7F]), (0x0091, [0x5A])])) =
      some ⟨0x5A, false, false, false, false, 0x0012, 3⟩ := by decide
theorem test_asl_defect_writes_at_the_operand_value :
    ((after (stepWith { params with aslWriteback := .operandValue }
      (core 0x0200 [(0x0200, [0x06, 0x40]), (0x0040, [0x80]), (0x0080, [0x11])]))).map
        fun t => (t.mem.read 0x0040, t.mem.read 0x0080)) = some (0x80, 0x00) := by decide
theorem test_wrapped_sum : seen (stepWith { params with addrOverflow := .wrap }
    { core 0x0200 [(0x0200, [0xBD, 0xF0, 0xFF]), (0x0000, [0x44])] with x := 0x10 }) =
      some ⟨0x44, false, false, false, false, 0x0203, 4⟩ := by decide


/-! ## Witnesses: for every statement that has hypotheses, states and operands that meet them, one for each clause, at the
boundary of its range where it has one -/

/-- `Fits` as a check that computes. -/
def fitsCheck (i : Instr) (s : State) : Bool :=
  decide (s.pc.toNat + i.mode.operandCount ≤ 65535) &&
    (match specAddress i.mode i.o1 i.o2 s with
      | none => true
      | some ea => inRange ea)

theorem fits_of_check {i : Instr} {s : State} (h : fitsCheck i s = true) : Fits i s := by
  simp only [fitsCheck, Bool.and_eq_true, decide_eq_true_eq] at h
  refine ⟨h.1, fun ea he => ?_⟩
  have h2 := h.2
  rw [he] at h2
  exact (inRange_iff ea).1 h2

/-- The highest PC at which a three-byte form resolves, with the highest effective address: `ADC $FFFF` (VR7, VR25). -/
def topAdc : State := { core 0xFFFD [(0xFFFD, [0x6D, 0xFF, 0xFF])] with a := 0x01, phase := .running }

/-- `ASL $FFFF` at 0xFFFD, which shifts its own operand byte (45_asl.md R218 (g)). -/
def topAsl : State := { core 0xFFFD [(0xFFFD, [0x0E, 0xFF, 0xFF])] with phase := .running }

/-- `ASL $0204` before `LDA #$21` (P3). -/
def selfModifying : State := core 0x0200 [(0x0200, [0x0E, 0x04, 0x02, 0xA9, 0x21])]

/-- An indexed sum one past the top: `ADC $FFFF,X` with X = 1. -/
def pastTop : State := { core 0x0200 [(0x0200, [0x7D, 0xFF, 0xFF])] with x := 0x01 }

theorem witness_DecodeOfEncodeIsTheInstruction : (Instr.ldaAbs 0xFF 0x00).wf = true ∧ Instr.aslAcc.wf = true := ⟨rfl, rfl⟩

theorem witness_DecodedBytesAreTheEncoding : decode [0xAD, 0xCD, 0xAB, 0x00] = .ok (.ldaAbs 0xCD 0xAB, [0x00]) := rfl

theorem witness_ResetLeavesThePowerOnRegisters : (core 0x1234 [(0xFFFC, [0x00, 0x02])]).fault = none := rfl

theorem witness_ResetIsIdempotentAndHistoryFree :
    (core 0x1234 [(0xFFFC, [0x00, 0x02])]).fault = none ∧
    { core 0x0000 [(0x0040, [0x07]), (0xFFFC, [0x00, 0x02])] with a := 0x99, flagC := true, cyc := 9 }.fault = none ∧
    (core 0x1234 [(0xFFFC, [0x00, 0x02])]).mem.read 0xFFFC = (core 0 [(0x0040, [0x07]), (0xFFFC, [0x00, 0x02])]).mem.read 0xFFFC ∧
    (core 0x1234 [(0xFFFC, [0x00, 0x02])]).mem.read 0xFFFD = (core 0 [(0x0040, [0x07]), (0xFFFC, [0x00, 0x02])]).mem.read 0xFFFD := by
  decide

theorem stopped_inv : Inv stopped := ⟨by decide, by decide, by decide⟩

theorem witness_HaltedIsLeftOnlyByPowerOn : Inv stopped ∧ stopped.phase = .halted ∧
    event .powerOn stopped = .next State.reset ∧ event .reset stopped = .next stopped :=
  ⟨stopped_inv, rfl, rfl, rfl⟩

theorem witness_LoadWritesItsBytesAndNothingElse : Inv State.reset ∧ State.reset.phase = .reset ∧
    0xFFFC + [(0x00 : Byte), 0x02, 0x00, 0x07].length ≤ 65536 ∧ 65536 < 0xFFFD + [(0x00 : Byte), 0x02, 0x00, 0x07].length ∧
    Inv { State.reset with phase := .running } ∧ { State.reset with phase := .running }.phase ≠ .reset :=
  ⟨⟨rfl, by decide, by decide⟩, rfl, by decide, by decide, ⟨rfl, by decide, by decide⟩, by decide⟩

theorem witness_ClearZeroesEveryCellAndNothingElse : (core 0x0200 [(0xFFFF, [0x69])]).phase = .reset ∧
    { core 0x0200 [(0xFFFF, [0x69])] with phase := .running }.phase ≠ .reset ∧ stopped.phase ≠ .reset :=
  ⟨rfl, by decide, by decide⟩

theorem witness_StepKeepsTheInvariant : Inv topAsl ∧ (∃ t, step topAsl = .next t ∧ t.phase = .running) ∧
    Inv pastTop ∧ ∃ t, step pastTop = .next t ∧ t.phase = .halted :=
  ⟨⟨by decide, by decide, by decide⟩, ⟨_, rfl, rfl⟩, ⟨by decide, by decide, by decide⟩, ⟨_, rfl, rfl⟩⟩

/-- For each event but the step; for `power_on` from a state that breaks the invariant. -/
theorem witness_HostEventsKeepTheInvariant :
    (¬ Inv { State.reset with mem := [(2, 0)] } ∧ ∃ t, event .powerOn { State.reset with mem := [(2, 0)] } = .next t) ∧
    (Inv State.reset ∧ (∃ t, event .reset State.reset = .next t) ∧ (∃ t, event .clear State.reset = .next t) ∧
      ∃ t, event (.load 0xFFFF [0x07]) State.reset = .next t) :=
  ⟨⟨fun h => by simpa [Memory.wf, memoryWfFrom, unlistedByte] using h.mem_wf, _, rfl⟩,
    ⟨rfl, by decide, by decide⟩, ⟨_, rfl⟩, ⟨_, rfl⟩, ⟨_, rfl⟩⟩

/-- `otherTable` with an 8-bit cycle counter that is full. -/
theorem witness_TableStepAlwaysAnswersAndKeepsTheInvariant :
    tableWf otherTable.opcodeTable = true ∧ (core 0x0010 [(0x0010, [0x80, 0x80])]).phase ≠ .halted ∧
    InvUnder { otherTable with cycWidth := 8 } { core 0x0010 [(0x0010, [0x80, 0x80])] with cyc := 255 } :=
  ⟨by decide, by decide, ⟨by decide, by decide, by decide⟩⟩

theorem reset_atPowerOnValues : AtPowerOnValues State.reset := ⟨rfl, rfl, rfl, rfl, rfl, rfl⟩

/-- For each of the five events, from reset. -/
theorem witness_EveryEventKeepsThePowerOnValues : Inv State.reset ∧ AtPowerOnValues State.reset ∧
    (∃ t, event .powerOn State.reset = .next t) ∧ (∃ t, event .reset State.reset = .next t) ∧
    (∃ t, event .step State.reset = .next t) ∧ (∃ t, event (.load 0xFFFF [0x07]) State.reset = .next t) ∧
    ∃ t, event .clear State.reset = .next t :=
  ⟨⟨rfl, by decide, by decide⟩, reset_atPowerOnValues, ⟨_, rfl⟩, ⟨_, rfl⟩, ⟨_, rfl⟩, ⟨_, rfl⟩, _, rfl⟩

/-- After one load and one step from power-on: `LDA #$7F` at 0x0000. -/
theorem witness_ReachableStatesHaveThePowerOnValues : ∃ s, Reachable s ∧ s.a = 0x7F ∧ s.pc = 0x0002 :=
  ⟨_, .event .step (.event (.load 0 [0xA9, 0x7F]) .powerOn rfl) rfl, rfl, rfl⟩

/-- A load leaves memory; a memory-mode ASL stores at 0x0204, and 0x0205 is another cell. -/
theorem witness_StepNeverChanges :
    ((∃ t, step topAdc = .next t) ∧ topAdc.mem.read topAdc.pc.toNat ∉ [(0x06 : Byte), 0x16, 0x0E, 0x1E]) ∧
    ((∃ t, step selfModifying = .next t) ∧ (∃ rest, fetchDecode selfModifying = .ok (.aslAbs 0x04 0x02, rest)) ∧
      (Instr.aslAbs 0x04 0x02).op = .asl ∧ (Instr.aslAbs 0x04 0x02).mode ≠ .acc ∧
      specAddress .abs 0x04 0x02 selfModifying = some 0x0204 ∧ ((0x0205 : Nat) : Int) ≠ 0x0204) :=
  ⟨⟨⟨_, rfl⟩, by decide⟩, ⟨_, rfl⟩, ⟨_, rfl⟩, rfl, by decide, rfl, by decide⟩

theorem witness_StackPointerAndIDBFlagsAreInert : (∃ t, step topAdc = .next t) ∧
    (∃ t, event .powerOn topAdc = .next t) ∧ (State.reset.fault = none ∧ ∃ t, event .reset State.reset = .next t) ∧
    (∃ t, event .step topAdc = .next t) ∧ (∃ t, event .clear State.reset = .next t) ∧
    ∃ t, event (.load 0xFFFF [0x07]) State.reset = .next t :=
  ⟨⟨_, rfl⟩, ⟨_, rfl⟩, ⟨rfl, _, rfl⟩, ⟨_, rfl⟩, ⟨_, rfl⟩, ⟨_, rfl⟩⟩

/-- An ADC that completes, an ASL that completes, and an LDA that faults. -/
theorem witness_FlagsOtherThanAdcsCarryAreNotRead :
    (∃ t, step topAdc = .next t ∧ t.phase = .running) ∧ (∃ rest, fetchDecode topAdc = .ok (.adcAbs 0xFF 0xFF, rest)) ∧
    (∃ t, step selfModifying = .next t ∧ t.phase = .running) ∧
    (∀ i rest, fetchDecode selfModifying = .ok (i, rest) → i.op ≠ .adc) ∧
    (∃ t, step (core 0xFFFF [(0xFFFF, [0xA9])]) = .next t ∧ t.phase = .halted) :=
  ⟨⟨_, rfl, rfl⟩, ⟨_, rfl⟩, ⟨_, rfl, rfl⟩, fun i rest h => by
    have h' : fetchDecode selfModifying = .ok (.aslAbs 0x04 0x02, []) := rfl
    rw [h'] at h
    cases h
    decide, ⟨_, rfl, rfl⟩⟩

/-- The first and the last cell, and the addresses just outside. -/
theorem witness_WriteChangesItsCellAlone : State.reset.mem.wf = true ∧
    ((0 : Int) ≤ 0 ∧ (0 : Int) ≤ 65535) ∧ ((0 : Int) ≤ 65535 ∧ (65535 : Int) ≤ 65535) ∧
    ¬ ((0 : Int) ≤ -1 ∧ (-1 : Int) ≤ 65535) ∧ ¬ ((0 : Int) ≤ 65536 ∧ (65536 : Int) ≤ 65535) :=
  ⟨rfl, by omega, by omega, by omega, by omega⟩

/-- Two ways to the same memory: writing 1 and then 0 at a cell, and writing nothing. -/
theorem witness_MemoriesThatReadAlikeAreEqual :
    Memory.wf (Memory.write (Memory.write [(7, 9)] 3 1) 3 0) = true ∧ Memory.wf [(7, 9)] = true ∧
    ∀ a, a < 65536 → Memory.read (Memory.write (Memory.write [(7, 9)] 3 1) 3 0) a = Memory.read [(7, 9)] a :=
  ⟨by decide, by decide, fun _ _ => rfl⟩

/-- P3: the operand byte at 0x0204 of the next instruction. -/
theorem witness_FetchSeesTheStoredByte : selfModifying.mem.wf = true ∧ (Instr.aslAbs 0x04 0x02).op = .asl ∧
    (Instr.aslAbs 0x04 0x02).mode ≠ .acc ∧ Fits (.aslAbs 0x04 0x02) selfModifying ∧
    specAddress .abs 0x04 0x02 selfModifying = some ((0x0204 : Nat) : Int) ∧
    ∃ t, exec (.aslAbs 0x04 0x02) selfModifying = .next t ∧ t.pc.toNat + 1 = 0x0204 :=
  ⟨by decide, rfl, by decide, fits_of_check (by decide), rfl, _, rfl, rfl⟩

theorem witness_OperandIsTheByteAtTheEffectiveAddress :
    resolveAtPc params .abs topAdc = .ok ⟨0xFF, some 0xFFFF⟩ ∧ resolveAtPc params .acc topAdc = .ok ⟨0x01, none⟩ ∧
    resolveAtPc params .imp topAdc = .ok ⟨0x00, none⟩ := ⟨rfl, rfl, rfl⟩

/-- The largest, the lowest and the least large address (VR23, VR21, and the Relative mode at PC = 0). -/
theorem witness_BadAddressesLieInTheirRange :
    resolve params .abx 0xFF 0xFF { State.reset with x := 0xFF } = .error 65790 ∧
    resolve params .imm 0x00 0x00 (core 0xFFFF []) = .error 65536 ∧
    resolve params .rel 0x80 0x00 State.reset = .error (-126) := ⟨rfl, rfl, rfl⟩

theorem witness_WrappedSumsNeverFault : { params with addrOverflow := .wrap }.addrOverflow = .wrap := rfl

/-- Each form of ADC has a state at which its addresses exist: the worked examples of 42_adc.md section 2, and the top of
memory. -/
theorem witness_AdcResult : (Instr.adcAbs 0xFF 0xFF).op = .adc ∧ Fits (.adcAbs 0xFF 0xFF) topAdc ∧
    Fits (.adcImm 0x50) (core 0xFFFE []) ∧ Fits (.adcZp 0xFF) (core 0xFFFE []) ∧ Fits (.adcZpx 0xFF) pastTop ∧
    Fits (.adcAbx 0xFE 0xFF) pastTop ∧ Fits (.adcAby 0xFF 0xFF) (core 0xFFFD []) ∧
    Fits (.adcIzx 0xFF) (core 0xFFFE []) ∧ Fits (.adcIzy 0xFF) (core 0xFFFE []) :=
  ⟨rfl, fits_of_check (by decide), fits_of_check (by decide), fits_of_check (by decide), fits_of_check (by decide),
    fits_of_check (by decide), fits_of_check (by decide), fits_of_check (by decide), fits_of_check (by decide)⟩

theorem witness_AndResult : (Instr.andAbs 0xFF 0xFF).op = .and ∧ Fits (.andAbs 0xFF 0xFF) topAdc ∧
    Fits (.andImm 0x50) (core 0xFFFE []) ∧ Fits (.andZp 0xFF) (core 0xFFFE []) ∧ Fits (.andZpx 0xFF) pastTop ∧
    Fits (.andAbx 0xFE 0xFF) pastTop ∧ Fits (.andAby 0xFF 0xFF) (core 0xFFFD []) ∧
    Fits (.andIzx 0xFF) (core 0xFFFE []) ∧ Fits (.andIzy 0xFF) (core 0xFFFE []) :=
  ⟨rfl, fits_of_check (by decide), fits_of_check (by decide), fits_of_check (by decide), fits_of_check (by decide),
    fits_of_check (by decide), fits_of_check (by decide), fits_of_check (by decide), fits_of_check (by decide)⟩

theorem witness_LdaResult : (Instr.ldaAbs 0xFF 0xFF).op = .lda ∧ Fits (.ldaAbs 0xFF 0xFF) topAdc ∧
    Fits (.ldaImm 0x50) (core 0xFFFE []) ∧ Fits (.ldaZp 0xFF) (core 0xFFFE []) ∧ Fits (.ldaZpx 0xFF) pastTop ∧
    Fits (.ldaAbx 0xFE 0xFF) pastTop ∧ Fits (.ldaAby 0xFF 0xFF) (core 0xFFFD []) ∧
    Fits (.ldaIzx 0xFF) (core 0xFFFE []) ∧ Fits (.ldaIzy 0xFF) (core 0xFFFE []) :=
  ⟨rfl, fits_of_check (by decide), fits_of_check (by decide), fits_of_check (by decide), fits_of_check (by decide),
    fits_of_check (by decide), fits_of_check (by decide), fits_of_check (by decide), fits_of_check (by decide)⟩

/-- The accumulator form at the top of memory and each memory form. -/
theorem witness_AslResult : topAsl.mem.wf = true ∧ (Instr.aslAbs 0xFF 0xFF).op = .asl ∧ (Instr.aslAbs 0xFF 0xFF).mode ≠ .acc ∧
    Fits (.aslAbs 0xFF 0xFF) topAsl ∧ (Instr.aslAcc).mode = .acc ∧ Fits .aslAcc (core 0xFFFF []) ∧
    Fits (.aslZp 0xFF) (core 0xFFFE []) ∧ Fits (.aslZpx 0xFF) pastTop ∧ Fits (.aslAbx 0xFE 0xFF) pastTop :=
  ⟨by decide, rfl, by decide, fits_of_check (by decide), rfl, fits_of_check (by decide), fits_of_check (by decide),
    fits_of_check (by decide), fits_of_check (by decide)⟩

theorem witness_AslIsADoubling : topAsl.mem.wf = true ∧ (Instr.aslAbs 0xFF 0xFF).op = .asl ∧ Fits (.aslAbs 0xFF 0xFF) topAsl ∧
    (∃ t, exec (.aslAbs 0xFF 0xFF) topAsl = .next t) ∧ specAddress .abs 0xFF 0xFF topAsl = some 0xFFFF ∧
    Fits .aslAcc (core 0xFFFF []) ∧ Instr.aslAcc.mode = .acc ∧ ∃ t, exec .aslAcc (core 0xFFFF []) = .next t :=
  ⟨by decide, rfl, fits_of_check (by decide), ⟨_, rfl⟩, rfl, fits_of_check (by decide), rfl, _, rfl⟩

theorem witness_DecimalFlagDoesNotAffectAdc : (Instr.adcAbs 0xFF 0xFF).op = .adc ∧ Fits (.adcAbs 0xFF 0xFF) topAdc :=
  ⟨rfl, fits_of_check (by decide)⟩

theorem witness_PcAdvancesByTheLengthModulo65536 : Fits (.adcAbs 0xFF 0xFF) topAdc ∧
    (∃ t, step pastTop = .next t ∧ t.phase = .halted) ∧ ∃ t, event .clear State.reset = .next t :=
  ⟨fits_of_check (by decide), ⟨_, rfl, rfl⟩, _, rfl⟩

/-- With CYC one below its wrap. -/
theorem witness_CompletionAddsTheCyclesOfTheMode : Fits (.adcAbs 0xFF 0xFF) { topAdc with cyc := 0xFFFFFFFFFFFFFFFF } :=
  fits_of_check (by decide)

theorem witness_AccumulatorFormsFrame :
    ((Instr.adcAbs 0xFF 0xFF).op ≠ .asl ∧ ∃ t, exec (.adcAbs 0xFF 0xFF) topAdc = .next t ∧ t.phase ≠ .halted) ∧
    ((Instr.andAbs 0xFF 0xFF).op = .and ∧ ∃ t, exec (.andAbs 0xFF 0xFF) topAdc = .next t) ∧
    ((Instr.aslAcc).mode = .acc ∧ ∃ t, exec .aslAcc topAdc = .next t) ∧
    ((Instr.ldaAbx 0xFF 0xFF).op ≠ .asl ∧ ∃ t, exec (.ldaAbx 0xFF 0xFF) pastTop = .next t ∧ t.phase = .halted) :=
  ⟨⟨by decide, _, rfl, by decide⟩, ⟨rfl, _, rfl⟩, ⟨rfl, _, rfl⟩, by decide, _, rfl, rfl⟩

theorem witness_MemoryShiftFrame : (Instr.aslAbs 0xFF 0xFF).op = .asl ∧ (Instr.aslAbs 0xFF 0xFF).mode ≠ .acc ∧
    (∃ t, exec (.aslAbs 0xFF 0xFF) topAsl = .next t ∧ t.phase ≠ .halted) ∧
    resolve params .abs 0xFF 0xFF topAsl = .ok ⟨0xFF, some 0xFFFF⟩ ∧
    (∃ t, exec (.aslAbx 0xFF 0xFF) pastTop = .next t) ∧ resolve params .abx 0xFF 0xFF pastTop = .error 65536 :=
  ⟨rfl, by decide, ⟨_, rfl, by decide⟩, rfl, ⟨_, rfl⟩, rfl⟩

/-- VF2, at the top of memory. -/
theorem witness_UnsupportedOpcodeFaults : (core 0xFFFF [(0xFFFF, [0xEA])]).phase ≠ .halted ∧
    lookupEntry params.opcodeTable ((core 0xFFFF [(0xFFFF, [0xEA])]).mem.read (core 0xFFFF [(0xFFFF, [0xEA])]).pc.toNat) = none := by
  decide

/-- VF4 and the first sum past the top; at VF9's state the first clause holds and not the second. -/
theorem witness_BadAddressesFaultPrecisely :
    65535 < (core 0xFFFE []).pc.toNat + (Instr.ldaAbs 0x00 0x00).mode.operandCount ∧
    (pastTop.pc.toNat + (Instr.adcAbx 0xFF 0xFF).mode.operandCount ≤ 65535 ∧
      specAddress .abx 0xFF 0xFF pastTop = some 65536 ∧ ¬ ((0 : Int) ≤ 65536 ∧ (65536 : Int) ≤ 65535)) :=
  ⟨by decide, by decide, rfl, by omega⟩

theorem witness_FaultsArePrecise : (∃ t, step pastTop = .next t ∧ t.phase = .halted) ∧
    ∃ t, step State.reset = .next t ∧ t.phase = .halted := ⟨⟨_, rfl, rfl⟩, _, rfl, rfl⟩

/-- At the highest PC a three-byte instruction fits at, its last byte in the last cell. -/
theorem witness_StepRunsTheDecodedInstruction : topAdc.phase ≠ .halted ∧ topAdc.pc.toNat + 2 ≤ 65535 ∧
    decode (fetchWindow params topAdc) = .ok (.adcAbs 0xFF 0xFF, []) ∧ (Instr.adcAbs 0xFF 0xFF).wf = true ∧
    topAdc.pc.toNat + (Instr.adcAbs 0xFF 0xFF).length ≤ 65536 ∧
    ∀ k, k < (Instr.adcAbs 0xFF 0xFF).length →
      topAdc.mem.read (topAdc.pc.toNat + k) = (encode (.adcAbs 0xFF 0xFF)).getD k 0 :=
  ⟨by decide, by decide, rfl, rfl, by decide, by decide⟩

theorem witness_PlacedInstructionRunsNext : (core 0xFFFD []).mem.wf = true ∧ (core 0xFFFD []).phase ≠ .halted ∧
    (core 0xFFFD []).pc.toNat + (Instr.adcAbs 0xFF 0xFF).length ≤ 65536 := by decide

theorem witness_StepOutputAgreesWithTheStep : stepOutput topAdc = .ok 4 ∧
    stepOutput pastTop = .fault (.addressOutOfRange 65536 0x0200) ∧ stepOutput stopped = .none := ⟨rfl, rfl, rfl⟩

end Sys2Proof.Tests
end

section
/-! PROOFS. The resolver against the columns `ea` and `m` of spec/40_addressing_modes.md R118, for all thirteen modes: where
the addresses exist it answers exactly them. -/

namespace Sys2Proof.Machine

/-- An operand byte that lies at or below 0xFFFF is delivered (R101). -/
theorem operandByte_params {s : State} {k : Nat} (v : Byte) (h : s.pc.toNat + k ≤ 65535) :
    operandByte params s k v = .ok v :=
  operandByte_of_inRange ⟨Int.natCast_nonneg _, Int.ofNat_le.2 h⟩

/-- A mode with an effective address, Immediate apart, loads the byte at the address of R118 once its operand bytes exist,
whether or not that address exists (R117). -/
theorem resolve_eq_loadOperand {mode : Mode} {o1 o2 : Byte} {s : State} {ea : Int} (himm : mode ≠ .imm)
    (hpc : s.pc.toNat + mode.operandCount ≤ 65535) (hea : specAddress mode o1 o2 s = some ea) :
    resolve params mode o1 o2 s = loadOperand s ea := by
  have page : ∀ n : Nat, n % 256 ≤ 65535 := fun n => by omega
  have byte : ∀ b : Byte, b.toNat ≤ 65535 := fun b => by have := b.isLt; omega
  have one : 1 ≤ mode.operandCount → ∀ v, operandByte params s 1 v = .ok v := fun h v =>
    operandByte_params v (by omega)
  have two : 2 ≤ mode.operandCount → ∀ v, operandByte params s 2 v = .ok v := fun h v =>
    operandByte_params v (by omega)
  cases mode with
  | acc | imp => cases hea
  | imm => exact absurd rfl himm
  | zp | zpx | zpy =>
    cases hea
    simp [resolve, resolveZp, resolveZpIndexed, one (by decide), bind, Except.bind]
  | abs | abx | aby =>
    cases hea
    simp [resolve, resolveAbs, resolveAbsIndexed, one (by decide), two (by decide), mkWord_toNat, bind, Except.bind]
  | rel =>
    cases hea
    simp [resolve, resolveRel, one (by decide), sext8, bind, Except.bind]
  | izx =>
    cases hea
    simp only [resolve, resolveIzx, one (by decide), readPointer_natCast (page _) (page _), mkWord_toNat, bind, Except.bind]
    simp
  | izy =>
    cases hea
    simp only [resolve, resolveIzy, one (by decide), readPointer_natCast (byte _) (page _), mkWord_toNat, bind, Except.bind]
    simp
  | ind =>
    cases hea
    have word : o1.toNat + 256 * o2.toNat ≤ 65535 := mkWord_toNat o1 o2 ▸ mkWord_toNat_le o1 o2
    have wordNext : (o1.toNat + 256 * o2.toNat + 1) % 65536 ≤ 65535 := by omega
    simp only [resolve, resolveInd, one (by decide), two (by decide), mkWord_toNat, readPointer_natCast word wordNext, bind,
      Except.bind]
    simp

/-- The operand of such a mode is the byte at its effective address (R117). -/
theorem specOperand_eq_read {mode : Mode} {o1 o2 : Byte} {s : State} {ea : Int} (himm : mode ≠ .imm)
    (hea : specAddress mode o1 o2 s = some ea) : specOperand mode o1 o2 s = s.mem.read ea.toNat := by
  cases mode with
  | acc | imp => cases hea
  | imm => exact absurd rfl himm
  | _ => cases hea; rfl

/-- Where the operand bytes and the effective address exist, the resolver answers R118's operand and address. -/
theorem resolve_eq_spec {mode : Mode} {o1 o2 : Byte} {s : State} (hpc : s.pc.toNat + mode.operandCount ≤ 65535)
    (hr : ∀ ea, specAddress mode o1 o2 s = some ea → InRange ea) :
    resolve params mode o1 o2 s = .ok ⟨specOperand mode o1 o2 s, specAddress mode o1 o2 s⟩ := by
  cases hea : specAddress mode o1 o2 s with
  | none =>
    cases mode with
    | acc | imp => rfl
    | _ => cases hea
  | some ea =>
    by_cases himm : mode = .imm
    · subst himm
      cases hea
      have byte : operandByte params s 1 o1 = .ok o1 := operandByte_params o1 hpc
      simp [resolve, resolveImm, byte, specOperand, bind, Except.bind]
    · rw [resolve_eq_loadOperand himm hpc hea, loadOperand_of_inRange (hr ea hea), specOperand_eq_read himm hea]

/-- An instruction that fits resolves to its operand and its address. -/
theorem resolve_of_fits {i : Instr} {s : State} (h : Fits i s) :
    resolve params i.mode i.o1 i.o2 s = .ok ⟨specOperand i.mode i.o1 i.o2 s, specAddress i.mode i.o1 i.o2 s⟩ :=
  resolve_eq_spec h.1 h.2

/-- An accumulator form whose mode resolves applies its effect to the operand and completes. -/
theorem readForm_of_resolve {cfg : Config} {mode : Mode} {l c : Nat} {f : Byte → State → State} {o1 o2 : Byte} {s : State}
    {p : Operand} (h : resolve cfg mode o1 o2 s = .ok p) :
    readForm cfg mode l c f o1 o2 s = .next ((f p.value s).complete cfg l c) := by
  rw [readForm, h]

end Sys2Proof.Machine
end

section
/-! PROOFS. The result and flag functions in arithmetic (spec/10_state.md R26, R29, R32; spec/42_adc.md R150). -/

namespace Sys2Proof.Machine

/-- PC after a step that completes (R26). -/
theorem State.complete_pc_toNat (cfg : Config) (l c : Nat) (s : State) :
    (s.complete cfg l c).pc.toNat = (s.pc.toNat + l) % 65536 := by
  simp

theorem zeroFlag_iff (r : Byte) : zeroFlag r = true ↔ r.toNat = 0 := by
  rw [zeroFlag, decide_eq_true_iff, ← BitVec.toNat_inj]
  rfl

theorem negativeFlag_eq_msb (r : Byte) : negativeFlag r = r.msb := by
  rw [negativeFlag, BitVec.msb_eq_getLsbD_last]

theorem adcResult_toNat (a m : Byte) (c : Bool) :
    (adcResult a m c).toNat = (a.toNat + m.toNat + c.toNat) % 256 := by
  rw [adcResult, adcSum, BitVec.toNat_ofNat, Nat.mod_mod]

theorem adcCarry_iff (a m : Byte) (c : Bool) :
    adcCarry a m c = true ↔ a.toNat + m.toNat + c.toNat > 255 := decide_eq_true_iff

theorem adcOverflow_iff (a m : Byte) (c : Bool) :
    adcOverflow a m c = true ↔ (~~~(a ^^^ m)) &&& (a ^^^ adcResult a m c) &&& (0x80 : Byte) ≠ 0 := decide_eq_true_iff

end Sys2Proof.Machine
end

section
/-! PROOFS. Add-with-carry (spec/42_adc.md R150, R160): an ADC that fits completes with `adcEffect` of its operand, and
neither the operand nor the effect reads D. -/

namespace Sys2Proof.Machine

/-- An ADC that fits completes, its effect applied to R118's operand. -/
theorem exec_adc_of_fits {i : Instr} {s : State} (hop : i.op = .adc) (h : Fits i s) :
    exec i s =
      .next ((adcEffect (specOperand i.mode i.o1 i.o2 s) s).complete params i.length (cyclesOf i.op i.mode)) := by
  have entry : exec i s = readForm params i.mode i.length (cyclesOf i.op i.mode) adcEffect i.o1 i.o2 s := by
    rw [exec_eq_executeEntry, hop]
    rfl
  rw [entry, readForm_of_resolve (resolve_of_fits h)]

/-- Whether an instruction fits does not depend on D. -/
theorem fits_flagD_iff (i : Instr) (s : State) (d : Bool) : Fits i { s with flagD := d } ↔ Fits i s := Iff.rfl

/-- The operand of a mode does not depend on D. -/
theorem specOperand_flagD (mode : Mode) (o1 o2 : Byte) (s : State) (d : Bool) :
    specOperand mode o1 o2 { s with flagD := d } = specOperand mode o1 o2 s := rfl

/-- D passes unread through the effect of ADC (R160). -/
theorem adcEffect_flagD_comm (m : Byte) (s : State) (d : Bool) :
    adcEffect m { s with flagD := d } = { adcEffect m s with flagD := d } := rfl

/-- D passes unread through the end of a step. -/
theorem State.complete_flagD_comm (cfg : Config) (l c : Nat) (s : State) (d : Bool) :
    State.complete cfg l c { s with flagD := d } = { s.complete cfg l c with flagD := d } := rfl

end Sys2Proof.Machine

namespace Sys2Proof.Certificates

open Sys2Proof.Machine

/-- Settles O28: the state an ADC that fits ends in, read field by field (R150). -/
theorem adcResult : Obligations.AdcResult := by
  unfold Obligations.AdcResult
  intro i s hop hfits
  refine ⟨_, exec_adc_of_fits hop hfits, adcResult_toNat _ _ _, adcCarry_iff _ _ _, zeroFlag_iff _,
    negativeFlag_eq_msb _, adcOverflow_iff _ _ _, ?_⟩
  exact ⟨rfl, rfl, rfl, rfl, rfl, rfl, rfl, State.complete_pc_toNat _ _ _ _⟩

/-- Settles O34: with another D the same ADC still fits and has the same operand, and D passes through its effect and the
end of the step. -/
theorem decimalFlagDoesNotAffectAdc : Obligations.DecimalFlagDoesNotAffectAdc := by
  unfold Obligations.DecimalFlagDoesNotAffectAdc
  intro i s d hop hfits
  have hfits' : Fits i { s with flagD := d } := (fits_flagD_iff i s d).2 hfits
  refine ⟨_, exec_adc_of_fits hop hfits, ?_, adcResult_toNat _ _ _⟩
  rw [exec_adc_of_fits hop hfits', specOperand_flagD, adcEffect_flagD_comm, State.complete_flagD_comm]

end Sys2Proof.Certificates
end

section
/-! PROOFS. Logical AND (spec/43_and.md R170): an AND that fits completes with `andEffect` of its operand, whose result is
taken bit by bit. -/

namespace Sys2Proof.Machine

/-- An AND that fits completes, its effect applied to R118's operand. -/
theorem exec_and_of_fits {i : Instr} {s : State} (hop : i.op = .and) (h : Fits i s) :
    exec i s =
      .next ((andEffect (specOperand i.mode i.o1 i.o2 s) s).complete params i.length (cyclesOf i.op i.mode)) := by
  have entry : exec i s = readForm params i.mode i.length (cyclesOf i.op i.mode) andEffect i.o1 i.o2 s := by
    rw [exec_eq_executeEntry, hop]
    rfl
  rw [entry, readForm_of_resolve (resolve_of_fits h)]

theorem andResult_getLsbD (a m : Byte) (k : Nat) :
    (andResult a m).getLsbD k = (a.getLsbD k && m.getLsbD k) := BitVec.getLsbD_and

end Sys2Proof.Machine

namespace Sys2Proof.Certificates

open Sys2Proof.Machine

/-- Settles O29: the state an AND that fits ends in, read field by field (R170). -/
theorem andResult : Obligations.AndResult := by
  unfold Obligations.AndResult
  intro i s hop hfits
  refine ⟨_, exec_and_of_fits hop hfits, andResult_getLsbD _ _, zeroFlag_iff _, negativeFlag_eq_msb _, ?_⟩
  exact ⟨rfl, rfl, rfl, rfl, rfl, rfl, rfl, rfl, rfl, State.complete_pc_toNat _ _ _ _⟩

end Sys2Proof.Certificates
end

section
/-! PROOFS. Load accumulator (spec/44_lda.md R190): an LDA that fits completes with `ldaEffect` of its operand, and neither
the operand of a mode other than Accumulator nor the effect reads A. -/

namespace Sys2Proof.Machine

/-- An LDA that fits completes, its effect applied to R118's operand. -/
theorem exec_lda_of_fits {i : Instr} {s : State} (hop : i.op = .lda) (h : Fits i s) :
    exec i s =
      .next ((ldaEffect (specOperand i.mode i.o1 i.o2 s) s).complete params i.length (cyclesOf i.op i.mode)) := by
  have entry : exec i s = readForm params i.mode i.length (cyclesOf i.op i.mode) ldaEffect i.o1 i.o2 s := by
    rw [exec_eq_executeEntry, hop]
    rfl
  rw [entry, readForm_of_resolve (resolve_of_fits h)]

/-- The mask of R190 keeps every bit of a byte. -/
theorem ldaResult_eq (m : Byte) : ldaResult m = m := BitVec.and_allOnes

/-- Accumulator mode is a mode of ASL alone. -/
theorem mode_ne_acc_of_op_ne_asl {i : Instr} (hop : i.op ≠ .asl) : i.mode ≠ .acc := by
  intro hmode
  cases i with
  | aslAcc => exact hop rfl
  | _ => cases hmode

/-- Whether an instruction fits does not depend on A. -/
theorem fits_a_iff (i : Instr) (s : State) (v : Byte) : Fits i { s with a := v } ↔ Fits i s := Iff.rfl

/-- The operand of a mode other than Accumulator does not depend on A. -/
theorem specOperand_a {mode : Mode} (hacc : mode ≠ .acc) (o1 o2 : Byte) (s : State) (v : Byte) :
    specOperand mode o1 o2 { s with a := v } = specOperand mode o1 o2 s := by
  cases mode with
  | acc => exact absurd rfl hacc
  | _ => rfl

/-- The effect of LDA overwrites A unread (R190). -/
theorem ldaEffect_overwrites_a (m : Byte) (s : State) (v : Byte) : ldaEffect m { s with a := v } = ldaEffect m s := rfl

/-- An LDA that fits does the same from every old A (R190). -/
theorem exec_lda_a {i : Instr} {s : State} (hop : i.op = .lda) (h : Fits i s) (v : Byte) :
    exec i { s with a := v } = exec i s := by
  have hfits : Fits i { s with a := v } := (fits_a_iff i s v).2 h
  have hacc : i.mode ≠ .acc := mode_ne_acc_of_op_ne_asl (by simp [hop])
  rw [exec_lda_of_fits hop hfits, exec_lda_of_fits hop h, specOperand_a hacc, ldaEffect_overwrites_a]

end Sys2Proof.Machine

namespace Sys2Proof.Certificates

open Sys2Proof.Machine

/-- Settles O30: the state an LDA that fits ends in, read field by field, and the same from any other old A (R190). -/
theorem ldaResult : Obligations.LdaResult := by
  unfold Obligations.LdaResult
  intro i s hop hfits
  have hexec := exec_lda_of_fits hop hfits
  refine ⟨_, hexec, ldaResult_eq _, zeroFlag_iff _, negativeFlag_eq_msb _, ?_⟩
  exact ⟨rfl, rfl, rfl, rfl, rfl, rfl, rfl, rfl, rfl, State.complete_pc_toNat _ _ _ _,
    fun v => (exec_lda_a hop hfits v).trans hexec⟩

end Sys2Proof.Certificates
end

section
/-! PROOFS. Shift left (spec/45_asl.md R210, R217): its result and flags in arithmetic, and an ASL that fits completes with
the result in A or in the cell at its effective address. -/

namespace Sys2Proof.Machine

theorem negativeFlag_iff (r : Byte) : negativeFlag r = true ↔ r.toNat ≥ 128 := by
  rw [negativeFlag_eq_msb, BitVec.msb_eq_decide, decide_eq_true_iff]

theorem aslResult_toNat (m : Byte) : (aslResult m).toNat = 2 * m.toNat % 256 := by
  have mask : aslResult m = m <<< 1 := BitVec.and_allOnes
  rw [mask, BitVec.toNat_shiftLeft, Nat.shiftLeft_eq, Nat.mul_comm]

theorem aslCarry_iff (m : Byte) : aslCarry m = true ↔ m.toNat ≥ 128 := negativeFlag_iff m

/-- The ninth bit of the doubling goes to C (R217). -/
theorem aslCarry_aslResult_doubles (m : Byte) :
    256 * (aslCarry m).toNat + (aslResult m).toNat = 2 * m.toNat := by
  have byte := m.isLt
  rw [aslResult_toNat]
  cases hc : aslCarry m with
  | true =>
    have high := (aslCarry_iff m).1 hc
    rw [Bool.toNat_true]
    omega
  | false =>
    have low := mt (aslCarry_iff m).2 (Bool.eq_false_iff.1 hc)
    rw [Bool.toNat_false]
    omega

/-- The signed doubling overflows exactly where the two top bits of the operand, C and N of the step, differ (R217). -/
theorem sext8_doubling_overflow_iff (m : Byte) :
    (2 * sext8 m < -128 ∨ 127 < 2 * sext8 m) ↔ aslCarry m ≠ negativeFlag (aslResult m) := by
  have byte := m.isLt
  rw [ne_eq, Bool.eq_iff_iff, aslCarry_iff, negativeFlag_iff, aslResult_toNat, sext8]
  split <;> omega

/-- A memory-mode ASL whose address resolves stores there and completes (R210, R216). -/
theorem aslMemoryForm_of_resolve {mode : Mode} {l c : Nat} {o1 o2 m : Byte} {s : State} {ea : Int}
    (h : resolve params mode o1 o2 s = .ok ⟨m, some ea⟩) :
    aslMemoryForm params mode l c o1 o2 s =
      .next ((aslFlags m (s.setMem (s.mem.write ea.toNat (aslResult m)))).complete params l c) := by
  have store := memWrite_of_inRange (s := s) (v := aslResult m) (resolve_ea_inRange h)
  simp [aslMemoryForm, h, aslMemoryEffect, store, bind, Except.bind]

/-- An ASL outside Accumulator mode has an effective address. -/
theorem specAddress_of_asl {i : Instr} (hop : i.op = .asl) (hacc : i.mode ≠ .acc) (s : State) :
    ∃ ea, specAddress i.mode i.o1 i.o2 s = some ea := by
  cases i with
  | aslAcc => exact absurd rfl hacc
  | aslZp | aslZpx | aslAbs | aslAbx => exact ⟨_, rfl⟩
  | _ => cases hop

/-- An ASL that fits completes, its result in A in Accumulator mode and at R118's address otherwise. -/
theorem exec_asl_of_fits {i : Instr} {s : State} (hop : i.op = .asl) (h : Fits i s) :
    ∃ (a : Byte) (mem : Memory),
      exec i s = .next ((aslFlags (specOperand i.mode i.o1 i.o2 s) ((s.setA a).setMem mem)).complete params i.length
        (cyclesOf i.op i.mode)) ∧
      (i.mode = .acc → a = aslResult (specOperand i.mode i.o1 i.o2 s) ∧ mem = s.mem) ∧
      (i.mode ≠ .acc → a = s.a ∧ ∃ ea, specAddress i.mode i.o1 i.o2 s = some ea ∧ InRange ea ∧
        mem = s.mem.write ea.toNat (aslResult (specOperand i.mode i.o1 i.o2 s))) := by
  have hresolve := resolve_of_fits h
  by_cases hacc : i.mode = .acc
  · refine ⟨_, _, ?_, fun _ => ⟨rfl, rfl⟩, fun hne => absurd hacc hne⟩
    simp only [exec_eq_executeEntry, executeEntry, hop, if_pos hacc, readForm_of_resolve hresolve]
    rfl
  · obtain ⟨ea, hea⟩ := specAddress_of_asl hop hacc s
    refine ⟨_, _, ?_, fun heq => absurd heq hacc, fun _ => ⟨rfl, ea, hea, h.2 ea hea, rfl⟩⟩
    rw [hea] at hresolve
    simp only [exec_eq_executeEntry, executeEntry, hop, if_neg hacc, aslMemoryForm_of_resolve hresolve]
    rfl

end Sys2Proof.Machine

namespace Sys2Proof.Certificates

open Sys2Proof.Machine

/-- Settles O31: the state an ASL that fits ends in, read field by field; the cell stored to reads as the result and every
other cell as before (R210, R52). -/
theorem aslResult : Obligations.AslResult := by
  unfold Obligations.AslResult
  intro i s hwf hop hfits
  obtain ⟨a, mem, hexec, hacc, hmemory⟩ := exec_asl_of_fits hop hfits
  refine ⟨_, _, hexec, aslResult_toNat _, hacc, fun hne => ?_, aslCarry_iff _, zeroFlag_iff _, negativeFlag_eq_msb _,
    rfl, rfl, rfl, rfl, rfl, rfl, rfl, State.complete_pc_toNat _ _ _ _⟩
  obtain ⟨ha, ea, hea, hrange, rfl⟩ := hmemory hne
  exact ⟨ha, ea, hea, Memory.read_write_same hwf, fun b hb => Memory.read_write_ne (by omega)⟩

/-- Settles O33: the result in A or in the cell doubles the operand with C as the ninth bit, and C and N are the operand's
two top bits (R217). -/
theorem aslIsADoubling : Obligations.AslIsADoubling := by
  unfold Obligations.AslIsADoubling
  intro i s t hwf hop hfits ht
  obtain ⟨a, mem, hexec, hacc, hmemory⟩ := exec_asl_of_fits hop hfits
  obtain rfl := Host.Outcome.next.inj (ht.symm.trans hexec)
  refine ⟨fun hmode => ?_, fun ea hea => ?_, rfl, sext8_doubling_overflow_iff _⟩
  · obtain ⟨rfl, -⟩ := hacc hmode
    exact aslCarry_aslResult_doubles _
  · have hne : i.mode ≠ .acc := fun hmode => by simp [hmode, specAddress] at hea
    obtain ⟨-, ea', hea', -, rfl⟩ := hmemory hne
    obtain rfl := Option.some.inj (hea.symm.trans hea')
    simpa [Memory.read_write_same hwf] using aslCarry_aslResult_doubles (specOperand i.mode i.o1 i.o2 s)

end Sys2Proof.Certificates
end

section
/-! PROOFS. The encoding (spec/30_encoding.md R80 to R92): what the opcode table has at a byte, what `assemble` and `decode`
answer, and that decoding and encoding are each other's inverse. -/

namespace Sys2Proof

/-- Every instruction has its row in the opcode table. -/
theorem Instr.tableRow (i : Instr) : Laws.TableRow.Statement i := by
  cases i with
  | adcImm o1 => exact Laws.TableRow.adcImm o1
  | adcZp o1 => exact Laws.TableRow.adcZp o1
  | adcZpx o1 => exact Laws.TableRow.adcZpx o1
  | adcAbs o1 o2 => exact Laws.TableRow.adcAbs o1 o2
  | adcAbx o1 o2 => exact Laws.TableRow.adcAbx o1 o2
  | adcAby o1 o2 => exact Laws.TableRow.adcAby o1 o2
  | adcIzx o1 => exact Laws.TableRow.adcIzx o1
  | adcIzy o1 => exact Laws.TableRow.adcIzy o1
  | andImm o1 => exact Laws.TableRow.andImm o1
  | andZp o1 => exact Laws.TableRow.andZp o1
  | andZpx o1 => exact Laws.TableRow.andZpx o1
  | andAbs o1 o2 => exact Laws.TableRow.andAbs o1 o2
  | andAbx o1 o2 => exact Laws.TableRow.andAbx o1 o2
  | andAby o1 o2 => exact Laws.TableRow.andAby o1 o2
  | andIzx o1 => exact Laws.TableRow.andIzx o1
  | andIzy o1 => exact Laws.TableRow.andIzy o1
  | ldaImm o1 => exact Laws.TableRow.ldaImm o1
  | ldaZp o1 => exact Laws.TableRow.ldaZp o1
  | ldaZpx o1 => exact Laws.TableRow.ldaZpx o1
  | ldaAbs o1 o2 => exact Laws.TableRow.ldaAbs o1 o2
  | ldaAbx o1 o2 => exact Laws.TableRow.ldaAbx o1 o2
  | ldaAby o1 o2 => exact Laws.TableRow.ldaAby o1 o2
  | ldaIzx o1 => exact Laws.TableRow.ldaIzx o1
  | ldaIzy o1 => exact Laws.TableRow.ldaIzy o1
  | aslAcc => exact Laws.TableRow.aslAcc
  | aslZp o1 => exact Laws.TableRow.aslZp o1
  | aslZpx o1 => exact Laws.TableRow.aslZpx o1
  | aslAbs o1 o2 => exact Laws.TableRow.aslAbs o1 o2
  | aslAbx o1 o2 => exact Laws.TableRow.aslAbx o1 o2

/-- `assemble` reads the operand bytes of an instruction and leaves the bytes after them. -/
theorem assemble_operandBytes (i : Instr) (rest : List Byte) :
    assemble i.op i.mode (i.operandBytes ++ rest) = some (i, rest) := by
  cases i <;> rfl

/-- What `assemble` answers has the identifier and the mode it was asked for, and the bytes it read. -/
theorem assemble_cases {op : Op} {mode : Mode} {bytes rest : List Byte} {i : Instr}
    (h : assemble op mode bytes = some (i, rest)) : i.op = op ∧ i.mode = mode ∧ bytes = i.operandBytes ++ rest := by
  unfold assemble at h
  split at h <;> cases h <;> exact ⟨rfl, rfl, rfl⟩

/-! The opcode table -/

/-- An entry that is found stands in the table. -/
theorem mem_of_lookupEntry {table : List (Byte × Entry)} {b : Byte} {e : Entry} (h : lookupEntry table b = some e) :
    (b, e) ∈ table := by
  obtain ⟨before, after, rfl, -⟩ := List.lookup_eq_some_iff.1 h
  exact List.mem_append_right _ List.mem_cons_self

/-- No two rows of the table have the same instruction identifier and mode. -/
theorem opcodeTable_row_unique : ∀ r ∈ opcodeTable, ∀ r' ∈ opcodeTable,
    r.2.op = r'.2.op → r.2.mode = r'.2.mode → r = r' := by decide

/-- The opcode byte at which the table has an instruction's identifier and mode is that instruction's. -/
theorem Instr.opcode_of_lookupEntry {i : Instr} {b : Byte} {e : Entry} (h : lookupEntry opcodeTable b = some e)
    (hop : i.op = e.op) (hmode : i.mode = e.mode) : i.opcode = b := by
  obtain ⟨-, c, -, hrow⟩ := i.tableRow
  exact congrArg Prod.fst
    (opcodeTable_row_unique _ (mem_of_lookupEntry hrow) _ (mem_of_lookupEntry h) hop hmode)

/-- The bytes that have a row are those R90 lists, in another order. -/
theorem opcodeTable_keys_perm : (opcodeTable.map Prod.fst).Perm supportedOpcodes := by decide

/-- A byte without a row is one R90 does not list. -/
theorem lookupEntry_opcodeTable_eq_none_iff (b : Byte) :
    lookupEntry opcodeTable b = none ↔ b ∉ supportedOpcodes := by
  rw [← opcodeTable_keys_perm.mem_iff, lookupEntry, List.lookup_eq_none_iff, List.mem_map]
  simp only [bne_iff_ne, not_exists, not_and]
  exact ⟨fun h r hr heq => h r hr heq.symm, fun h r hr heq => h r hr heq.symm⟩

/-! Decoding -/

theorem decode_of_assemble {b : Byte} {bytes : List Byte} {e : Entry} {r : Instr × List Byte}
    (he : lookupEntry opcodeTable b = some e) (hr : assemble e.op e.mode bytes = some r) :
    decode (b :: bytes) = .ok r := by
  simp [decode, he, hr]

theorem decode_of_lookupEntry_eq_none {b : Byte} (bytes : List Byte) (h : lookupEntry opcodeTable b = none) :
    decode (b :: bytes) = .error (.unsupportedOpcode b) := by
  simp [decode, h]

/-- What decodes has a row at its first byte, and its other bytes assemble. -/
theorem decode_cases {bytes : List Byte} {r : Instr × List Byte} (h : decode bytes = .ok r) :
    ∃ b operands e, bytes = b :: operands ∧ lookupEntry opcodeTable b = some e ∧
      assemble e.op e.mode operands = some r := by
  unfold decode at h
  split at h
  · cases h
  · next b operands =>
    split at h
    · cases h
    · next e he =>
      split at h
      · cases h
      · next r' hr =>
        cases h
        exact ⟨b, operands, e, rfl, he, hr⟩

/-- Decoding undoes encoding (R80, R86). -/
theorem decode_encode (i : Instr) (rest : List Byte) : decode (encode i ++ rest) = .ok (i, rest) := by
  obtain ⟨-, c, -, hrow⟩ := i.tableRow
  exact decode_of_assemble hrow (assemble_operandBytes i rest)

/-- Encoding undoes decoding (R82, R85). -/
theorem eq_encode_of_decode {bytes rest : List Byte} {i : Instr} (h : decode bytes = .ok (i, rest)) :
    bytes = encode i ++ rest := by
  obtain ⟨b, operands, e, rfl, he, hr⟩ := decode_cases h
  obtain ⟨hop, hmode, rfl⟩ := assemble_cases hr
  rw [encode, Instr.opcode_of_lookupEntry he hop hmode, List.cons_append]

theorem decode_eq_unsupportedOpcode_iff (b : Byte) (bytes : List Byte) :
    decode (b :: bytes) = .error (.unsupportedOpcode b) ↔ lookupEntry opcodeTable b = none := by
  refine ⟨fun h => ?_, decode_of_lookupEntry_eq_none bytes⟩
  cases he : lookupEntry opcodeTable b with
  | none => rfl
  | some e =>
    simp only [decode, he] at h
    split at h <;> cases h

end Sys2Proof

namespace Sys2Proof.Certificates

/-- Settles O1: the row of the instruction is found at its opcode byte, and its operand bytes assemble. -/
theorem decodeOfEncodeIsTheInstruction : Obligations.DecodeOfEncodeIsTheInstruction := by
  unfold Obligations.DecodeOfEncodeIsTheInstruction
  intro i rest _
  exact decode_encode i rest

/-- Settles O2: the byte whose row has an instruction's identifier and mode is its opcode byte, since no two rows share
both. -/
theorem decodedBytesAreTheEncoding : Obligations.DecodedBytesAreTheEncoding := by
  unfold Obligations.DecodedBytesAreTheEncoding
  intro bytes rest i
  exact eq_encode_of_decode

/-- Settles O3: the decoder refuses the bytes without a row, and those with one are R90's list. -/
theorem unsupportedOpcodesAreThoseNotListed : Obligations.UnsupportedOpcodesAreThoseNotListed := by
  unfold Obligations.UnsupportedOpcodesAreThoseNotListed
  intro b rest
  exact (decode_eq_unsupportedOpcode_iff b rest).trans (lookupEntry_opcodeTable_eq_none_iff b)

/-- Settles O4: each word is the encoding of its instruction. -/
theorem sampleWordsDecode : Obligations.SampleWordsDecode := by
  unfold Obligations.SampleWordsDecode
  exact ⟨decode_encode .aslAcc [], decode_encode (.ldaImm 0x7F) [], decode_encode (.adcZp 0x10) [],
    decode_encode (.andZpx 0xF8) [], decode_encode (.ldaAbs 0xCD 0xAB) [], decode_encode (.aslAbx 0xFF 0x2F) [],
    decode_encode (.adcAby 0xF8 0x20) [], decode_encode (.ldaIzx 0x00) [], decode_encode (.ldaIzy 0x10) []⟩

end Sys2Proof.Certificates
end

section
/-! PROOFS. The addressing modes (spec/40_addressing_modes.md R102 to R114), each against its pseudocode over `memRead`. -/

namespace Sys2Proof.Machine

/-- An operand byte that the fetch delivered is a read of its address, also where that address does not exist (R101). -/
theorem operandByte_fetchByte (cfg : Config) (s : State) (k : Nat) :
    operandByte cfg s k (fetchByte cfg s k) = memRead s (operandAddr cfg s k) := by
  unfold operandByte fetchByte memRead operandAddr
  split <;> rfl

/-- Every mode with an address but Immediate ends in the read of its operand (R117). -/
theorem loadOperand_eq (s : State) (ea : Int) :
    loadOperand s ea = (do
      let m ← memRead s ea
      .ok ⟨m, some ea⟩) := rfl

/-- A pointer mode reads the pointer's two cells, low byte first, and goes on with the word they hold (R55). -/
theorem readPointer_bind {β : Type} (s : State) (lo hi : Int) (f : Word → Except Int β) :
    (readPointer s lo hi >>= f) = (do
      let l ← memRead s lo
      let h ← memRead s hi
      f (mkWord l h)) := by
  unfold readPointer
  cases memRead s lo with
  | error a => rfl
  | ok l => cases memRead s hi <;> rfl

end Sys2Proof.Machine

namespace Sys2Proof.Certificates

open Sys2Proof.Machine

/-- Settles O21: an operand byte is the read of its address, and the two of Absolute make the word (R54). -/
theorem directModesFollowTheirRules : Obligations.DirectModesFollowTheirRules := by
  unfold Obligations.DirectModesFollowTheirRules
  intro s
  refine ⟨rfl, ?_, ?_, ?_, rfl⟩
  · simp [resolveAtPc, resolve, resolveImm, operandByte_fetchByte]
  · simp [resolveAtPc, resolve, resolveZp, operandByte_fetchByte, loadOperand_eq]
  · simp [resolveAtPc, resolve, resolveAbs, operandByte_fetchByte, loadOperand_eq, mkWord_toNat]

/-- Settles O22: the zero-page sum is reduced, the absolute sum is not (R105, R108, R116). -/
theorem indexedModesFollowTheirRules : Obligations.IndexedModesFollowTheirRules := by
  unfold Obligations.IndexedModesFollowTheirRules
  intro s
  refine ⟨?_, ?_, ?_, ?_⟩
  · simp [resolveAtPc, resolve, resolveZpIndexed, operandByte_fetchByte, loadOperand_eq]
  · simp [resolveAtPc, resolve, resolveZpIndexed, operandByte_fetchByte, loadOperand_eq]
  · simp [resolveAtPc, resolve, resolveAbsIndexed, operandByte_fetchByte, loadOperand_eq, mkWord_toNat]
  · simp [resolveAtPc, resolve, resolveAbsIndexed, operandByte_fetchByte, loadOperand_eq, mkWord_toNat]

/-- Settles O23: the pointer modes read their two cells in order and go on with the word (R55, R111 to R113). -/
theorem indirectAndRelativeModesFollowTheirRules : Obligations.IndirectAndRelativeModesFollowTheirRules := by
  unfold Obligations.IndirectAndRelativeModesFollowTheirRules
  intro s
  refine ⟨?_, ?_, ?_, ?_⟩
  · simp [resolveAtPc, resolve, resolveRel, operandByte_fetchByte, loadOperand_eq, sext8]
  · simp [resolveAtPc, resolve, resolveIzx, operandByte_fetchByte, loadOperand_eq, readPointer_bind, mkWord_toNat]
  · simp [resolveAtPc, resolve, resolveIzy, operandByte_fetchByte, loadOperand_eq, readPointer_bind, mkWord_toNat]
  · simp [resolveAtPc, resolve, resolveInd, operandByte_fetchByte, loadOperand_eq, readPointer_bind, mkWord_toNat]

end Sys2Proof.Certificates
end

section
/-! PROOFS. What a mode that resolves answers, and which address a mode that faults reports (spec/40_addressing_modes.md
R117; spec/20_memory.md R67; spec/60_exceptions.md R235). -/

namespace Sys2Proof.Machine

/-! The mode resolves -/

/-- What a mode answers: A, the sentinel zero, the Immediate byte with its address, or the byte in the cell at an address
that exists. -/
theorem resolve_ok_cases {cfg : Config} {mode : Mode} {o1 o2 : Byte} {s : State} {p : Operand}
    (h : resolve cfg mode o1 o2 s = .ok p) :
    (mode = .acc ∧ p = ⟨s.a, none⟩) ∨ (mode = .imp ∧ p = ⟨0x00, none⟩) ∨
    (mode = .imm ∧ operandByte cfg s 1 o1 = .ok p.value ∧ p.ea = some (operandAddr cfg s 1)) ∨
    (∃ ea, InRange ea ∧ p = ⟨s.mem.read ea.toNat, some ea⟩) := by
  have load : ∀ ea, loadOperand s ea = .ok p → ∃ ea, InRange ea ∧ p = ⟨s.mem.read ea.toNat, some ea⟩ :=
    fun ea h => ⟨ea, loadOperand_cases h⟩
  cases mode with
  | acc => exact .inl ⟨rfl, (Except.ok.inj h).symm⟩
  | imp => exact .inr (.inl ⟨rfl, (Except.ok.inj h).symm⟩)
  | imm =>
    obtain ⟨m, hm, hp⟩ := bind_eq_ok h
    cases hp
    exact .inr (.inr (.inl ⟨rfl, hm, rfl⟩))
  | zp | zpx | zpy | rel =>
    obtain ⟨_, _, h⟩ := bind_eq_ok h
    exact .inr (.inr (.inr (load _ h)))
  | abs | abx | aby | izx | izy =>
    obtain ⟨_, _, h⟩ := bind_eq_ok h
    obtain ⟨_, _, h⟩ := bind_eq_ok h
    exact .inr (.inr (.inr (load _ h)))
  | ind =>
    obtain ⟨_, _, h⟩ := bind_eq_ok h
    obtain ⟨_, _, h⟩ := bind_eq_ok h
    obtain ⟨_, _, h⟩ := bind_eq_ok h
    exact .inr (.inr (.inr (load _ h)))

/-! The mode faults -/

/-- The address a computation of the resolver raises, if it raises one. -/
def raised {α : Type} : Except Int α → Option Int
  | .error a => some a
  | .ok _ => none

theorem raised_operandByte_bind {β : Type} (cfg : Config) (s : State) (k : Nat) (v : Byte) (f : Byte → Except Int β) :
    raised (operandByte cfg s k v >>= f) =
      if InRange (operandAddr cfg s k) then raised (f v) else some (operandAddr cfg s k) := by
  split
  · next h => rw [operandByte_of_inRange h]; rfl
  · next h => rw [operandByte_of_not_inRange h]; rfl

theorem raised_memRead_bind {β : Type} (s : State) (a : Int) (f : Byte → Except Int β) :
    raised (memRead s a >>= f) = if InRange a then raised (f (s.mem.read a.toNat)) else some a := by
  split
  · next h => rw [memRead_of_inRange h]; rfl
  · next h => rw [memRead_of_not_inRange h]; rfl

theorem raised_loadOperand (s : State) (ea : Int) : raised (loadOperand s ea) = if InRange ea then none else some ea :=
  raised_memRead_bind s ea _

/-- The first address of a list that is outside memory. -/
def firstBad (addrs : List Int) : Option Int := addrs.find? fun a => !decide (InRange a)

theorem firstBad_nil : firstBad [] = none := rfl

theorem firstBad_cons (a : Int) (addrs : List Int) :
    firstBad (a :: addrs) = if InRange a then firstBad addrs else some a := by
  by_cases h : InRange a
  · rw [firstBad, List.find?_cons, decide_eq_true h, if_pos h]
    rfl
  · rw [firstBad, List.find?_cons, decide_eq_false h, if_neg h]
    rfl

/-- The address a mode raises is the first bad one of the addresses it reads, in their order (R67, R235). -/
theorem firstBad_resolveReads (cfg : Config) (mode : Mode) (o1 o2 : Byte) (s : State) :
    firstBad (resolveReads cfg mode o1 o2 s) = raised (resolve cfg mode o1 o2 s) := by
  cases mode with
  | acc | imp => rfl
  | imm =>
    rw [resolveReads, resolve, resolveImm, raised_operandByte_bind, firstBad_cons]
    rfl
  | zp | zpx | zpy =>
    simp only [resolveReads, resolve, resolveZp, resolveZpIndexed, firstBad_cons, firstBad_nil, raised_operandByte_bind,
      raised_loadOperand]
  | abs | abx | aby =>
    simp only [resolveReads, resolve, resolveAbs, resolveAbsIndexed, firstBad_cons, firstBad_nil, raised_operandByte_bind,
      raised_loadOperand]
  | rel =>
    simp only [resolveReads, resolve, resolveRel, firstBad_cons, firstBad_nil, raised_operandByte_bind, raised_loadOperand]
  | izx | izy | ind =>
    simp only [resolveReads, resolve, resolveIzx, resolveIzy, resolveInd, firstBad_cons, firstBad_nil, readPointer_bind,
      raised_operandByte_bind, raised_memRead_bind, raised_loadOperand, Int.toNat_natCast]

theorem resolveReads_length_le (cfg : Config) (mode : Mode) (o1 o2 : Byte) (s : State) :
    (resolveReads cfg mode o1 o2 s).length ≤ 5 := by
  cases mode <;> simp [resolveReads]

/-- The address a mode raises is one it reads, and it is outside memory. -/
theorem resolve_error_mem {cfg : Config} {mode : Mode} {o1 o2 : Byte} {s : State} {a : Int}
    (h : resolve cfg mode o1 o2 s = .error a) : a ∈ resolveReads cfg mode o1 o2 s ∧ ¬ InRange a := by
  have hfirst : firstBad (resolveReads cfg mode o1 o2 s) = some a := by rw [firstBad_resolveReads, h]; rfl
  refine ⟨List.mem_of_find?_eq_some hfirst, fun hin => ?_⟩
  have hbad := List.find?_some hfirst
  rw [decide_eq_true hin] at hbad
  cases hbad

/-- A mode all of whose reads exist resolves. -/
theorem resolve_ok_of_reads_inRange {cfg : Config} {mode : Mode} {o1 o2 : Byte} {s : State}
    (h : ∀ a ∈ resolveReads cfg mode o1 o2 s, InRange a) : ∃ p, resolve cfg mode o1 o2 s = .ok p := by
  cases hr : resolve cfg mode o1 o2 s with
  | ok p => exact ⟨p, rfl⟩
  | error a =>
    obtain ⟨hmem, hbad⟩ := resolve_error_mem hr
    exact absurd (h a hmem) hbad

/-! The addresses a mode reads -/

theorem inRange_natCast {n : Nat} (h : n ≤ 65535) : InRange (n : Int) := ⟨by omega, by omega⟩

theorem inRange_byte (b : Byte) : InRange (b.toNat : Int) := inRange_natCast (by have := b.isLt; omega)

theorem inRange_word (w : Word) : InRange (w.toNat : Int) := inRange_natCast (by have := w.isLt; omega)

theorem inRange_page (n : Nat) : InRange ((n % 256 : Nat) : Int) := inRange_natCast (by omega)

theorem inRange_mod (n : Nat) : InRange ((n % 65536 : Nat) : Int) := inRange_natCast (by omega)

/-- What holds of the addresses that exist, of the addresses of operand bytes, of indexed sums and of the Relative sum holds
of every address a mode reads. -/
theorem forall_mem_resolveReads {cfg : Config} {mode : Mode} {o1 o2 : Byte} {s : State} {P : Int → Prop}
    (inside : ∀ a, InRange a → P a) (operand : ∀ k, k ≤ 2 → P (operandAddr cfg s k))
    (indexed : ∀ (w : Word) (index : Byte), P (sumAddr cfg (w.toNat + index.toNat : Nat)))
    (relative : mode = .rel → P (sumAddr cfg ((s.pc.toNat + 2 : Nat) + sext8 o1))) :
    ∀ a ∈ resolveReads cfg mode o1 o2 s, P a := by
  have p1 : P (operandAddr cfg s 1) := operand 1 (by omega)
  have p2 : P (operandAddr cfg s 2) := operand 2 (by omega)
  have byte : ∀ b : Byte, P (b.toNat : Int) := fun b => inside _ (inRange_byte b)
  have word : ∀ w : Word, P (w.toNat : Int) := fun w => inside _ (inRange_word w)
  have page : ∀ n : Nat, P ((n % 256 : Nat) : Int) := fun n => inside _ (inRange_page n)
  have wrapped : ∀ n : Nat, P ((n % 65536 : Nat) : Int) := fun n => inside _ (inRange_mod n)
  rw [← List.forall_iff_forall_mem]
  cases mode with
  | acc | imp => trivial
  | imm => exact p1
  | zp => exact ⟨p1, byte _⟩
  | zpx | zpy => exact ⟨p1, page _⟩
  | abs => exact ⟨p1, p2, word _⟩
  | abx | aby => exact ⟨p1, p2, indexed _ _⟩
  | rel => exact ⟨p1, relative rfl⟩
  | izx => exact ⟨p1, page _, page _, word _⟩
  | izy => exact ⟨p1, byte _, page _, indexed _ _⟩
  | ind => exact ⟨p1, p2, word _, wrapped _, word _⟩

theorem sumAddr_wrap_inRange {cfg : Config} (h : cfg.addrOverflow = .wrap) (a : Int) : InRange (sumAddr cfg a) := by
  have reduced : sumAddr cfg a = a % 65536 := by rw [sumAddr, h]
  rw [reduced]
  exact ⟨by omega, by omega⟩

theorem sext8_bounds (b : Byte) : -128 ≤ sext8 b ∧ sext8 b ≤ 127 := by
  have byte := b.isLt
  rw [sext8]
  split <;> omega

end Sys2Proof.Machine

namespace Sys2Proof.Certificates

open Sys2Proof.Machine

/-- Settles O26: the address raised is the first bad one among the reads, of which there are at most five. -/
theorem firstBadAccessIsTheOneReported : Obligations.FirstBadAccessIsTheOneReported := by
  unfold Obligations.FirstBadAccessIsTheOneReported
  intro cfg mode o1 o2 s
  refine ⟨?_, resolveReads_length_le cfg mode o1 o2 s⟩
  have hfirst := firstBad_resolveReads cfg mode o1 o2 s
  cases hr : resolve cfg mode o1 o2 s with
  | error a => rwa [hr] at hfirst
  | ok p => rwa [hr] at hfirst

/-- Settles O24: an Immediate byte is the one fetched at its address, and every other operand with an address is read
there. -/
theorem operandIsTheByteAtTheEffectiveAddress : Obligations.OperandIsTheByteAtTheEffectiveAddress := by
  unfold Obligations.OperandIsTheByteAtTheEffectiveAddress
  intro cfg mode s m
  constructor
  · intro ea h
    obtain ⟨-, hp⟩ | ⟨-, hp⟩ | ⟨-, hbyte, hp⟩ | ⟨a, hr, hp⟩ := resolve_ok_cases h
    · cases hp
    · cases hp
    · cases hp
      rwa [operandByte_fetchByte] at hbyte
    · cases hp
      exact memRead_of_inRange hr
  · intro h
    obtain ⟨hmode, hp⟩ | ⟨hmode, hp⟩ | ⟨-, -, hp⟩ | ⟨a, -, hp⟩ := resolve_ok_cases h
    · cases hp
      exact .inl ⟨hmode, rfl⟩
    · cases hp
      exact .inr ⟨hmode, rfl⟩
    · cases hp
    · cases hp

/-- Settles O25: the address raised is one of the reads, and of those only an operand byte's, an indexed sum and the Relative
sum can be bad. -/
theorem badAddressesLieInTheirRange : Obligations.BadAddressesLieInTheirRange := by
  unfold Obligations.BadAddressesLieInTheirRange
  intro mode o1 o2 s a h
  obtain ⟨hmem, hbad⟩ := resolve_error_mem h
  have bounds : ∀ a ∈ resolveReads params mode o1 o2 s, InRange a ∨ (65536 ≤ a ∧ a ≤ 65790) ∨
      (mode = .rel ∧ -126 ≤ a ∧ a < 0) := by
    have pc := s.pc.isLt
    refine forall_mem_resolveReads (fun a => .inl) (fun k hk => ?_) (fun w index => ?_) (fun hrel => ?_)
    · simp only [operandAddr_params, InRange]
      omega
    · have := w.isLt
      have := index.isLt
      simp only [sumAddr_params, InRange]
      omega
    · have := sext8_bounds o1
      simp only [sumAddr_params, InRange, hrel, true_and]
      omega
  exact (bounds a hmem).resolve_left hbad

/-- Settles O27: under the wrap every address that is formed exists, so that every read does. -/
theorem wrappedSumsNeverFault : Obligations.WrappedSumsNeverFault := by
  unfold Obligations.WrappedSumsNeverFault
  intro cfg mode o1 o2 s hwrap
  have sum : ∀ a, InRange (sumAddr cfg a) := sumAddr_wrap_inRange hwrap
  exact resolve_ok_of_reads_inRange
    (forall_mem_resolveReads (fun _ => id) (fun _ _ => sum _) (fun _ _ => sum _) (fun _ => sum _))

end Sys2Proof.Certificates
end

section
/-! PROOFS. Memory (spec/20_memory.md R50 to R53): the write contract, the canonical form, and a run of bytes read back. -/

namespace Sys2Proof.Machine

/-- A write in range changes memory only, at one cell (R52, R53). -/
theorem memWrite_eq_of_inRange {s : State} {a : Int} (v : Int) (h : InRange a) :
    memWrite s a v = .ok (s.setMem (s.mem.write a.toNat (BitVec.ofInt 8 v))) := by
  rw [memWrite, inRange_of h, if_pos rfl]

/-- The byte a value is masked to (R53). -/
theorem toNat_ofInt_byte (v : Int) : ((BitVec.ofInt 8 v).toNat : Int) = v % 256 := by
  rw [BitVec.toNat_ofInt]
  omega

/-! The canonical form -/

theorem memoryWfFrom_cons_iff {lo k : Nat} {v : Byte} {rest : Memory} :
    memoryWfFrom lo ((k, v) :: rest) = true ↔
      lo ≤ k ∧ k < 65536 ∧ v ≠ unlistedByte ∧ memoryWfFrom (k + 1) rest = true := by
  simp only [memoryWfFrom, Bool.and_eq_true, decide_eq_true_eq, and_assoc]

theorem Memory.read_cons_self (k : Nat) (v : Byte) (rest : Memory) : Memory.read ((k, v) :: rest) k = v := if_pos rfl

theorem Memory.read_cons_ne {k a : Nat} (h : k ≠ a) (v : Byte) (rest : Memory) :
    Memory.read ((k, v) :: rest) a = Memory.read rest a := if_neg h

/-- The first listed address of a canonical memory is the first that does not read as an unlisted one, so it is not above
that of a memory that reads alike. -/
theorem first_le_first_of_read_eq {lo k k' : Nat} {v v' : Byte} {rest rest' : Memory}
    (h : memoryWfFrom lo ((k, v) :: rest) = true) (h' : memoryWfFrom lo ((k', v') :: rest') = true)
    (hread : Memory.read ((k, v) :: rest) k' = Memory.read ((k', v') :: rest') k') : k ≤ k' := by
  obtain ⟨-, -, -, hrest⟩ := memoryWfFrom_cons_iff.1 h
  obtain ⟨-, -, hv', -⟩ := memoryWfFrom_cons_iff.1 h'
  by_contra hlt
  rw [Memory.read_cons_self, Memory.read_cons_ne (by omega), Memory.read_of_wfFrom_lt hrest (by omega)] at hread
  exact hv' hread.symm

/-- Canonical memories that read alike are the same list, by their first cells. -/
theorem Memory.eq_of_read_eq : ∀ {lo : Nat} {m m' : Memory}, memoryWfFrom lo m = true → memoryWfFrom lo m' = true →
    (∀ a, a < 65536 → Memory.read m a = Memory.read m' a) → m = m'
  | _, [], [], _, _, _ => rfl
  | _, [], (k, v) :: rest, _, h', hread => by
    obtain ⟨-, hk, hv, -⟩ := memoryWfFrom_cons_iff.1 h'
    exact absurd ((hread k hk).trans (Memory.read_cons_self k v rest)).symm hv
  | _, (k, v) :: rest, [], h, _, hread => by
    obtain ⟨-, hk, hv, -⟩ := memoryWfFrom_cons_iff.1 h
    exact absurd ((Memory.read_cons_self k v rest).symm.trans (hread k hk)) hv
  | lo, (k, v) :: rest, (k', v') :: rest', h, h', hread => by
    obtain ⟨-, hk, -, hrest⟩ := memoryWfFrom_cons_iff.1 h
    obtain ⟨-, hk', -, hrest'⟩ := memoryWfFrom_cons_iff.1 h'
    obtain rfl : k = k' := le_antisymm (first_le_first_of_read_eq h h' (hread k' hk'))
      (first_le_first_of_read_eq h' h (hread k hk).symm)
    have hv : v = v' := by simpa only [Memory.read_cons_self] using hread k hk
    have hreadRest : ∀ a, a < 65536 → Memory.read rest a = Memory.read rest' a := fun a ha => by
      by_cases hka : k = a
      · subst hka
        rw [Memory.read_of_wfFrom_lt hrest (by omega), Memory.read_of_wfFrom_lt hrest' (by omega)]
      · simpa only [Memory.read_cons_ne hka] using hread a ha
    rw [hv, Memory.eq_of_read_eq hrest hrest' hreadRest]

/-! A run of bytes -/

/-- Writing a run of bytes changes no cell above it. -/
theorem Memory.read_writeBytes_ge : ∀ {bytes : List Byte} {m : Memory} {a b : Nat}, a + bytes.length ≤ b →
    Memory.read (Memory.writeBytes m a bytes) b = Memory.read m b
  | [], _, _, _, _ => rfl
  | v :: bytes, m, a, b, h => by
    rw [List.length_cons] at h
    rw [Memory.writeBytes, Memory.read_writeBytes_ge (by omega), Memory.read_write_ne (by omega)]

/-- A run of bytes is read back, byte `k` at `a + k`. -/
theorem Memory.read_writeBytes_add : ∀ {bytes : List Byte} {m : Memory} {a k : Nat}, m.wf = true →
    a + bytes.length ≤ 65536 → k < bytes.length →
    Memory.read (Memory.writeBytes m a bytes) (a + k) = bytes.getD k 0
  | v :: bytes, m, a, 0, hwf, hfit, _ => by
    have below := Memory.read_writeBytes_lt (bs := bytes) (m := Memory.write m a v) (Nat.lt_succ_self a)
    exact below.trans (Memory.read_write_same hwf)
  | v :: bytes, m, a, k + 1, hwf, hfit, hk => by
    rw [List.length_cons] at hfit hk
    have hwf' : Memory.wf (Memory.write m a v) = true := Memory.write_wf (by omega) hwf
    have tail : Memory.read (Memory.writeBytes (Memory.write m a v) (a + 1) bytes) (a + 1 + k) = bytes.getD k 0 :=
      Memory.read_writeBytes_add hwf' (by omega) (by omega)
    rwa [Nat.add_assoc, Nat.add_comm 1 k] at tail

end Sys2Proof.Machine

namespace Sys2Proof.Certificates

open Sys2Proof.Machine

/-- Settles O18: a write in range is `Memory.write` at one cell, whose reads are known; out of range there is no state. -/
theorem writeChangesItsCellAlone : Obligations.WriteChangesItsCellAlone := by
  unfold Obligations.WriteChangesItsCellAlone
  intro s a v hwf
  refine ⟨fun hr => ⟨_, memWrite_eq_of_inRange v hr, ?_, fun b hb => ?_, ?_, rfl⟩, memWrite_of_not_inRange⟩
  · rw [State.setMem_mem, Memory.read_write_same hwf, toNat_ofInt_byte]
  · exact Memory.read_write_ne (by omega)
  · rw [memRead_of_inRange hr, State.setMem_mem, Memory.read_write_same hwf]

/-- Settles O19, by induction on the two lists, whose first cells must agree. -/
theorem memoriesThatReadAlikeAreEqual : Obligations.MemoriesThatReadAlikeAreEqual := by
  unfold Obligations.MemoriesThatReadAlikeAreEqual
  intro m m'
  exact Memory.eq_of_read_eq

/-- Settles O9: the run of bytes is read back, the cells below and above it are as before. -/
theorem loadWritesItsBytesAndNothingElse : Obligations.LoadWritesItsBytesAndNothingElse := by
  unfold Obligations.LoadWritesItsBytesAndNothingElse
  intro s a bytes hinv
  refine ⟨fun hphase hfit => ⟨_, (if_pos hphase).trans (if_pos hfit), fun k hk => ?_, fun b hb => ?_, rfl⟩,
    fun hphase => if_neg hphase, fun hphase hpast => (if_pos hphase).trans (if_neg (by omega))⟩
  · exact Memory.read_writeBytes_add hinv.mem_wf hfit hk
  · obtain hlt | hge := hb
    · exact Memory.read_writeBytes_lt hlt
    · exact Memory.read_writeBytes_ge hge

/-- Settles O47: the cleared memory lists no cell. -/
theorem clearZeroesEveryCellAndNothingElse : Obligations.ClearZeroesEveryCellAndNothingElse := by
  unfold Obligations.ClearZeroesEveryCellAndNothingElse
  intro s
  exact ⟨fun hphase => ⟨_, if_pos hphase, fun _ => rfl, rfl⟩, fun hphase => if_neg hphase⟩

end Sys2Proof.Certificates
end

section
/-! PROOFS. A table entry's run (spec/41_core_step.md R132): it takes the address fault of its mode, or completes with ONE
effect, `effectOf`, whatever the configuration. What that effect leaves alone (R144) is said once, here. -/

namespace Sys2Proof.Machine

/-! The effect of an entry -/

/-- The store of a memory-mode ASL at its target (R216). -/
def storeShifted (cfg : Config) (p : Operand) (s : State) : State :=
  match p.ea with
  | some ea => s.setMem (s.mem.write (aslTarget cfg p.value ea).toNat (aslResult p.value))
  | none => s

/-- What an instruction and a mode do with a resolved operand, before the step completes (R135, R136).
`executeEntry_of_ok` and `exec_of_ok` say that the model does this. -/
def effectOf (cfg : Config) (op : Op) (mode : Mode) (p : Operand) (s : State) : State :=
  match op with
  | .adc => adcEffect p.value s
  | .and => andEffect p.value s
  | .lda => ldaEffect p.value s
  | .asl => if mode = .acc then aslAccEffect p.value s else aslFlags p.value (storeShifted cfg p s)

/-- The store of ASL is always at an address that exists: its operand's own, or a byte. -/
theorem aslTarget_inRange {cfg : Config} {mode : Mode} {o1 o2 : Byte} {s : State} {m : Byte} {ea : Int}
    (h : resolve cfg mode o1 o2 s = .ok ⟨m, some ea⟩) : InRange (aslTarget cfg m ea) := by
  cases hw : cfg.aslWriteback with
  | effectiveAddress => simpa only [aslTarget, hw] using resolve_ea_inRange h
  | operandValue => simpa only [aslTarget, hw] using inRange_byte m

/-- Only Accumulator and Implied resolve without an address. -/
theorem exists_ea_of_resolve {cfg : Config} {mode : Mode} {o1 o2 : Byte} {s : State} {p : Operand}
    (h : resolve cfg mode o1 o2 s = .ok p) (hacc : mode ≠ .acc) (himp : mode ≠ .imp) : ∃ ea, p.ea = some ea := by
  obtain ⟨hmode, -⟩ | ⟨hmode, -⟩ | ⟨-, -, hea⟩ | ⟨ea, -, rfl⟩ := resolve_ok_cases h
  · exact absurd hmode hacc
  · exact absurd hmode himp
  · exact ⟨_, hea⟩
  · exact ⟨ea, rfl⟩

theorem readForm_of_error {cfg : Config} {mode : Mode} {l c : Nat} {f : Byte → State → State} {o1 o2 : Byte} {s : State}
    {a : Int} (h : resolve cfg mode o1 o2 s = .error a) :
    readForm cfg mode l c f o1 o2 s = .next (s.takeFault (.addressOutOfRange a s.pc)) := by
  rw [readForm, h]
  rfl

theorem aslMemoryForm_of_error {cfg : Config} {mode : Mode} {l c : Nat} {o1 o2 : Byte} {s : State} {a : Int}
    (h : resolve cfg mode o1 o2 s = .error a) :
    aslMemoryForm cfg mode l c o1 o2 s = .next (s.takeFault (.addressOutOfRange a s.pc)) := by
  rw [aslMemoryForm, h]
  rfl

theorem aslMemoryForm_of_ok {cfg : Config} {mode : Mode} {l c : Nat} {o1 o2 : Byte} {s : State} {p : Operand} {ea : Int}
    (h : resolve cfg mode o1 o2 s = .ok p) (hea : p.ea = some ea) :
    aslMemoryForm cfg mode l c o1 o2 s = .next ((aslFlags p.value (storeShifted cfg p s)).complete cfg l c) := by
  obtain ⟨m, _⟩ := p
  subst hea
  have store := memWrite_of_inRange (s := s) (v := aslResult m) (aslTarget_inRange h)
  simp [aslMemoryForm, h, aslMemoryEffect, store, storeShifted, bind, Except.bind]

/-- An entry whose mode faults takes that fault (R235, R241). -/
theorem executeEntry_of_error {cfg : Config} {e : Entry} {o1 o2 : Byte} {s : State} {a : Int}
    (h : resolve cfg e.mode o1 o2 s = .error a) :
    executeEntry cfg e o1 o2 s = .next (s.takeFault (.addressOutOfRange a s.pc)) := by
  unfold executeEntry
  split
  · exact readForm_of_error h
  · exact readForm_of_error h
  · exact readForm_of_error h
  · split
    · exact readForm_of_error h
    · exact aslMemoryForm_of_error h

/-- An entry whose mode resolves completes with its effect, unless it is the pair R94 refuses. -/
theorem executeEntry_of_ok {cfg : Config} {e : Entry} {o1 o2 : Byte} {s : State} {p : Operand}
    (hlegal : e.op = .asl → e.mode ≠ .imp) (h : resolve cfg e.mode o1 o2 s = .ok p) :
    executeEntry cfg e o1 o2 s = .next ((effectOf cfg e.op e.mode p s).complete cfg e.length e.cycles) := by
  unfold executeEntry effectOf
  cases hop : e.op with
  | adc => exact readForm_of_resolve h
  | and => exact readForm_of_resolve h
  | lda => exact readForm_of_resolve h
  | asl =>
    by_cases hacc : e.mode = .acc
    · simp only [if_pos hacc]
      exact readForm_of_resolve h
    · obtain ⟨ea, hea⟩ := exists_ea_of_resolve h hacc (hlegal hop)
      simp only [if_neg hacc]
      exact aslMemoryForm_of_ok h hea

/-! What an effect leaves alone -/

/-- The fields no instruction writes (R144): X, Y, SP, I, D, B. -/
structure SameInertFields (s t : State) : Prop where
  x_eq : t.x = s.x
  y_eq : t.y = s.y
  sp_eq : t.sp = s.sp
  i_eq : t.flagI = s.flagI
  d_eq : t.flagD = s.flagD
  b_eq : t.flagB = s.flagB

/-- What an effect leaves for the end of the step to write, or for a fault: PC, the phase, FAULT, CYC; and the inert
fields. -/
structure EffectFrame (s t : State) : Prop extends SameInertFields s t where
  pc_eq : t.pc = s.pc
  phase_eq : t.phase = s.phase
  fault_eq : t.fault = s.fault
  cyc_eq : t.cyc = s.cyc

theorem effectOf_asl_of_ne_acc {mode : Mode} (h : mode ≠ .acc) (cfg : Config) (p : Operand) (s : State) :
    effectOf cfg .asl mode p s = aslFlags p.value (storeShifted cfg p s) := if_neg h

/-- ASL writes the flags, and changes A and memory in a way that depends on nothing else of the state. -/
theorem effectOf_asl_eq (cfg : Config) (mode : Mode) (p : Operand) :
    ∃ (shiftA : Byte → Byte) (store : Memory → Memory), ∀ s,
      effectOf cfg .asl mode p s = aslFlags p.value ((s.setA (shiftA s.a)).setMem (store s.mem)) := by
  by_cases hacc : mode = .acc
  · exact ⟨fun _ => aslResult p.value, id, fun s => if_pos hacc⟩
  · cases hea : p.ea with
    | none =>
      refine ⟨id, id, fun s => ?_⟩
      rw [effectOf_asl_of_ne_acc hacc, storeShifted, hea]
      rfl
    | some ea =>
      refine ⟨id, fun m => m.write (aslTarget cfg p.value ea).toNat (aslResult p.value), fun s => ?_⟩
      rw [effectOf_asl_of_ne_acc hacc, storeShifted, hea]
      rfl

theorem effectOf_frame (cfg : Config) (op : Op) (mode : Mode) (p : Operand) (s : State) :
    EffectFrame s (effectOf cfg op mode p s) := by
  cases op with
  | adc | and | lda => exact ⟨⟨rfl, rfl, rfl, rfl, rfl, rfl⟩, rfl, rfl, rfl, rfl⟩
  | asl =>
    obtain ⟨shiftA, store, h⟩ := effectOf_asl_eq cfg mode p
    rw [h]
    exact ⟨⟨rfl, rfl, rfl, rfl, rfl, rfl⟩, rfl, rfl, rfl, rfl⟩

/-- Memory is written by a memory-mode ASL alone (R144). -/
theorem effectOf_mem_eq {cfg : Config} {op : Op} {mode : Mode} (h : op ≠ .asl ∨ mode = .acc) (p : Operand) (s : State) :
    (effectOf cfg op mode p s).mem = s.mem := by
  cases op with
  | adc | and | lda => rfl
  | asl =>
    have hacc : mode = .acc := h.resolve_left (absurd rfl)
    subst hacc
    rfl

/-- A memory-mode ASL writes its one cell and leaves A (R210, R216). -/
theorem effectOf_asl_memory {cfg : Config} {mode : Mode} (h : mode ≠ .acc) {p : Operand} {ea : Int}
    (hea : p.ea = some ea) (s : State) :
    (effectOf cfg .asl mode p s).a = s.a ∧
    (effectOf cfg .asl mode p s).mem = s.mem.write (aslTarget cfg p.value ea).toNat (aslResult p.value) := by
  simp [effectOf_asl_of_ne_acc h, storeShifted, hea]

/-- An effect keeps memory canonical where its mode resolved. -/
theorem effectOf_mem_wf {cfg : Config} {op : Op} {mode : Mode} {o1 o2 : Byte} {s : State} {p : Operand}
    (h : resolve cfg mode o1 o2 s = .ok p) (hwf : s.mem.wf = true) : (effectOf cfg op mode p s).mem.wf = true := by
  by_cases hmem : op ≠ .asl ∨ mode = .acc
  · rwa [effectOf_mem_eq hmem]
  · obtain ⟨hop, hacc⟩ := not_or.1 hmem
    obtain rfl := not_not.1 hop
    obtain ⟨m, ea?⟩ := p
    cases ea? with
    | none => simpa [effectOf_asl_of_ne_acc hacc, storeShifted] using hwf
    | some ea =>
      have hlt : (aslTarget cfg m ea).toNat < 65536 := by
        obtain ⟨hlo, hhi⟩ := aslTarget_inRange h
        omega
      rw [(effectOf_asl_memory hacc rfl s).2]
      exact Memory.write_wf hlt hwf

/-- C is written by ADC and ASL alone, V by ADC alone (10_state.md section 4). -/
theorem effectOf_flagC_eq {op : Op} (h : op = .and ∨ op = .lda) (cfg : Config) (mode : Mode) (p : Operand) (s : State) :
    (effectOf cfg op mode p s).flagC = s.flagC := by
  obtain rfl | rfl := h <;> rfl

theorem effectOf_flagV_eq {op : Op} (h : op ≠ .adc) (cfg : Config) (mode : Mode) (p : Operand) (s : State) :
    (effectOf cfg op mode p s).flagV = s.flagV := by
  cases op with
  | adc => exact absurd rfl h
  | and | lda => rfl
  | asl =>
    obtain ⟨shiftA, store, h⟩ := effectOf_asl_eq cfg mode p
    rw [h]
    rfl

/-! The inert fields through the model's updates -/

theorem SameInertFields.refl (s : State) : SameInertFields s s := ⟨rfl, rfl, rfl, rfl, rfl, rfl⟩

theorem SameInertFields.setMem (s : State) (m : Memory) : SameInertFields s (s.setMem m) := ⟨rfl, rfl, rfl, rfl, rfl, rfl⟩

theorem SameInertFields.complete {s t : State} (h : SameInertFields s t) (cfg : Config) (l c : Nat) :
    SameInertFields s (t.complete cfg l c) := ⟨h.x_eq, h.y_eq, h.sp_eq, h.i_eq, h.d_eq, h.b_eq⟩

theorem SameInertFields.takeFault (s : State) (r : FaultRecord) : SameInertFields s (s.takeFault r) :=
  ⟨rfl, rfl, rfl, rfl, rfl, rfl⟩

end Sys2Proof.Machine
end

section
/-! PROOFS. The machine invariant (spec/10_state.md R38, R39, R44) along the table-driven step of any configuration
(spec/30_encoding.md R94). -/

namespace Sys2Proof.Machine

/-- Taking a fault keeps the invariant: the phase becomes Halted and FAULT a record together (R38). -/
theorem InvUnder.takeFault {cfg : Config} {s : State} (h : InvUnder cfg s) (r : FaultRecord) :
    InvUnder cfg (s.takeFault r) := ⟨h.mem_wf, by simp, h.cyc_lt⟩

/-- Completing a step establishes the invariant from a canonical memory and no fault. -/
theorem InvUnder.complete {s : State} (hwf : s.mem.wf = true) (hfault : s.fault = none) (cfg : Config) (l c : Nat) :
    InvUnder cfg (s.complete cfg l c) := ⟨hwf, by simp [hfault], Nat.mod_lt _ (Nat.two_pow_pos _)⟩

theorem InvUnder.fault_eq_none {cfg : Config} {s : State} (h : InvUnder cfg s) (hp : s.phase ≠ .halted) :
    s.fault = none := not_not.1 (mt h.halted_iff.2 hp)

/-- Every entry of a legal table is legal. -/
theorem wf_of_mem_tableWf {b : Byte} {e : Entry} : ∀ {table : List (Byte × Entry)}, tableWf table = true →
    (b, e) ∈ table → e.wf = true
  | (k, e') :: rest, h, hmem => by
    simp only [tableWf, Bool.and_eq_true] at h
    obtain ⟨⟨he', -⟩, hrest⟩ := h
    obtain heq | hmem := List.mem_cons.1 hmem
    · cases heq
      exact he'
    · exact wf_of_mem_tableWf hrest hmem

/-- A legal entry does not pair ASL with Implied (R94). -/
theorem Entry.mode_ne_imp_of_wf {e : Entry} (h : e.wf = true) (hop : e.op = .asl) : e.mode ≠ .imp := by
  intro himp
  simp [Entry.wf, hop, himp] at h

/-- A legal entry is answered, and keeps the invariant of a core that is not Halted. -/
theorem executeEntry_answers {cfg : Config} {e : Entry} {s : State} (he : e.wf = true) (hp : s.phase ≠ .halted)
    (h : InvUnder cfg s) (o1 o2 : Byte) : ∃ t, executeEntry cfg e o1 o2 s = .next t ∧ InvUnder cfg t := by
  cases hr : resolve cfg e.mode o1 o2 s with
  | error a => exact ⟨_, executeEntry_of_error hr, h.takeFault _⟩
  | ok p =>
    refine ⟨_, executeEntry_of_ok (Entry.mode_ne_imp_of_wf he) hr, InvUnder.complete (effectOf_mem_wf hr h.mem_wf) ?_ _ _ _⟩
    rw [(effectOf_frame cfg e.op e.mode p s).fault_eq, h.fault_eq_none hp]

/-! The table-driven step -/

theorem stepWith_of_halted {cfg : Config} {s : State} (hp : s.phase = .halted) : stepWith cfg s = .fault .halted := by
  rw [stepWith, hp]

/-- A byte without an entry is the opcode fault (R231). -/
theorem stepWith_of_none {cfg : Config} {s : State} (hp : s.phase ≠ .halted)
    (h : lookupEntry cfg.opcodeTable (fetchByte cfg s 0) = none) :
    stepWith cfg s = .next (s.takeFault (.unsupportedOpcode (fetchByte cfg s 0) s.pc)) := by
  cases hphase : s.phase with
  | halted => exact absurd hphase hp
  | reset | running => simp [stepWith, hphase, h, raiseOpcode]

/-- A byte with an entry is that entry's run. -/
theorem stepWith_of_some {cfg : Config} {s : State} {e : Entry} (hp : s.phase ≠ .halted)
    (h : lookupEntry cfg.opcodeTable (fetchByte cfg s 0) = some e) :
    stepWith cfg s = executeEntry cfg e (fetchByte cfg s 1) (fetchByte cfg s 2) s := by
  cases hphase : s.phase with
  | halted => exact absurd hphase hp
  | reset | running => simp [stepWith, hphase, h]

theorem stepWith_answers {cfg : Config} {s : State} (htable : tableWf cfg.opcodeTable = true) (hp : s.phase ≠ .halted)
    (h : InvUnder cfg s) : ∃ t, stepWith cfg s = .next t ∧ InvUnder cfg t := by
  cases he : lookupEntry cfg.opcodeTable (fetchByte cfg s 0) with
  | none => exact ⟨_, stepWith_of_none hp he, h.takeFault _⟩
  | some e =>
    rw [stepWith_of_some hp he]
    exact executeEntry_answers (wf_of_mem_tableWf htable (mem_of_lookupEntry he)) hp h _ _

end Sys2Proof.Machine

namespace Sys2Proof.Certificates

open Sys2Proof.Machine

/-- Settles O13: the byte at PC has no entry and the fault is taken, or a legal one, which is answered whatever its mode
resolves to. -/
theorem tableStepAlwaysAnswersAndKeepsTheInvariant : Obligations.TableStepAlwaysAnswersAndKeepsTheInvariant := by
  unfold Obligations.TableStepAlwaysAnswersAndKeepsTheInvariant
  intro cfg s
  exact stepWith_answers

end Sys2Proof.Certificates
end

section
/-! PROOFS. Fetching (spec/41_core_step.md R132 to R134): the window at PC, the instruction it decodes to, and the meaning
of that instruction as the run of its table entry. -/

namespace Sys2Proof.Machine

/-! The window -/

/-- A byte at or below 0xFFFF is fetched from its cell. -/
theorem fetchByte_params {s : State} {k : Nat} (h : s.pc.toNat + k ≤ 65535) :
    fetchByte params s k = s.mem.read (s.pc.toNat + k) := by
  rw [fetchByte, sumAddr_params, inRange_of (inRange_natCast h), if_pos rfl, Int.toNat_natCast]

theorem fetchByte_params_zero (s : State) : fetchByte params s 0 = s.mem.read s.pc.toNat :=
  fetchByte_params (by have := s.pc.isLt; omega)

theorem fetchWindow_getElem? {s : State} {k : Nat} (hk : k < 3) (h : s.pc.toNat + k ≤ 65535) :
    (fetchWindow params s)[k]? = some (s.mem.read (s.pc.toNat + k)) := by
  rw [← fetchByte_params h]
  obtain rfl | rfl | rfl : k = 0 ∨ k = 1 ∨ k = 2 := by omega
  · rfl
  · rfl
  · rfl

/-- The byte at PC is the opcode of the instruction that is decoded there. -/
theorem opcode_of_fetchDecode {s : State} {i : Instr} {rest : List Byte} (h : fetchDecode s = .ok (i, rest)) :
    s.mem.read s.pc.toNat = i.opcode := by
  have hwindow : fetchWindow params s = i.opcode :: (i.operandBytes ++ rest) := eq_encode_of_decode h
  rw [← fetchByte_params_zero]
  exact (List.cons.inj hwindow).1

theorem encode_length (i : Instr) : (encode i).length = i.length := by
  cases i <;> rfl

theorem operandCount_le (mode : Mode) : mode.operandCount ≤ 2 := by
  cases mode <;> decide

theorem length_bounds (i : Instr) : 1 ≤ i.length ∧ i.length ≤ 3 := by
  have := operandCount_le i.mode
  rw [Instr.length]
  omega

/-- An instruction whose bytes stand in memory at PC is the one decoded there. -/
theorem fetchDecode_of_bytes {i : Instr} {s : State} (hfit : s.pc.toNat + i.length ≤ 65536)
    (hbytes : ∀ k, k < i.length → s.mem.read (s.pc.toNat + k) = (encode i).getD k 0) :
    ∃ rest, fetchDecode s = .ok (i, rest) := by
  have begins : encode i <+: fetchWindow params s := by
    refine List.prefix_iff_getElem?.2 fun k hk => ?_
    have hlt : k < i.length := encode_length i ▸ hk
    have := (length_bounds i).2
    rw [fetchWindow_getElem? (by omega) (by omega), hbytes k hlt, List.getD_eq_getElem _ _ hk]
  obtain ⟨rest, hrest⟩ := begins
  exact ⟨rest, by rw [fetchDecode, ← hrest, decode_encode]⟩

/-! The step runs what is decoded -/

theorem step_of_fetchDecode {s : State} {i : Instr} {rest : List Byte} (hp : s.phase ≠ .halted)
    (h : fetchDecode s = .ok (i, rest)) : step s = exec i s := by
  obtain ⟨hp', -⟩ | ⟨-, ⟨e, he⟩, -⟩ | ⟨-, j, rest', hj, hstep⟩ := step_cases s
  · exact absurd hp' hp
  · cases h.symm.trans he
  · cases h.symm.trans hj
    exact hstep

theorem step_of_undecoded {s : State} {e : DecodeError} (hp : s.phase ≠ .halted) (h : fetchDecode s = .error e) :
    step s = .next (s.takeFault (.unsupportedOpcode (fetchByte params s 0) s.pc)) := by
  obtain ⟨hp', -⟩ | ⟨-, -, hstep⟩ | ⟨-, i, rest, hi, -⟩ := step_cases s
  · exact absurd hp' hp
  · exact hstep
  · cases h.symm.trans hi

/-! The meaning of an instruction -/

/-- The state an instruction ends in when its mode resolves to `p` (R132). -/
def completed (i : Instr) (p : Operand) (s : State) : State :=
  (effectOf params i.op i.mode p s).complete params i.length (cyclesOf i.op i.mode)

theorem mode_ne_imp (i : Instr) : i.mode ≠ .imp := by
  cases i <;> exact nofun

theorem exec_of_error {i : Instr} {s : State} {a : Int} (h : resolve params i.mode i.o1 i.o2 s = .error a) :
    exec i s = .next (s.takeFault (.addressOutOfRange a s.pc)) := by
  rw [exec_eq_executeEntry]
  exact executeEntry_of_error h

theorem exec_of_ok {i : Instr} {s : State} {p : Operand} (h : resolve params i.mode i.o1 i.o2 s = .ok p) :
    exec i s = .next (completed i p s) := by
  rw [exec_eq_executeEntry]
  exact executeEntry_of_ok (fun _ => mode_ne_imp i) h

/-- An instruction that fits completes, with R118's operand and address. -/
theorem exec_of_fits {i : Instr} {s : State} (h : Fits i s) :
    exec i s = .next (completed i ⟨specOperand i.mode i.o1 i.o2 s, specAddress i.mode i.o1 i.o2 s⟩ s) :=
  exec_of_ok (resolve_of_fits h)

/-- An instruction that is answered took the fault of its mode, or completed. -/
theorem exec_next_cases {i : Instr} {s t : State} (h : exec i s = .next t) :
    (∃ a, resolve params i.mode i.o1 i.o2 s = .error a ∧ t = s.takeFault (.addressOutOfRange a s.pc)) ∨
    (∃ p, resolve params i.mode i.o1 i.o2 s = .ok p ∧ t = completed i p s) := by
  cases hr : resolve params i.mode i.o1 i.o2 s with
  | error a => exact .inl ⟨a, rfl, Host.Outcome.next.inj (h.symm.trans (exec_of_error hr))⟩
  | ok p => exact .inr ⟨p, rfl, Host.Outcome.next.inj (h.symm.trans (exec_of_ok hr))⟩

@[simp] theorem completed_fault (i : Instr) (p : Operand) (s : State) : (completed i p s).fault = s.fault :=
  (effectOf_frame params i.op i.mode p s).fault_eq

@[simp] theorem completed_mem (i : Instr) (p : Operand) (s : State) :
    (completed i p s).mem = (effectOf params i.op i.mode p s).mem := rfl

theorem completed_cyc (i : Instr) (p : Operand) (s : State) :
    (completed i p s).cyc = (s.cyc + cyclesOf i.op i.mode) % 2 ^ 64 := by
  rw [completed, State.complete_cyc, (effectOf_frame params i.op i.mode p s).cyc_eq, params_cycWidth]

theorem completed_pc_toNat (i : Instr) (p : Operand) (s : State) :
    (completed i p s).pc.toNat = (s.pc.toNat + i.length) % 65536 := by
  rw [completed, State.complete_pc_toNat, (effectOf_frame params i.op i.mode p s).pc_eq]

theorem completed_sameInertFields (i : Instr) (p : Operand) (s : State) : SameInertFields s (completed i p s) :=
  (effectOf_frame params i.op i.mode p s).toSameInertFields.complete params i.length (cyclesOf i.op i.mode)

/-! The fields that fetching and resolving read -/

/-- Two states that agree in everything a fetch, a resolver and the start of a step read: A, X, Y, PC, memory and the phase. -/
structure SameInputs (s s' : State) : Prop where
  a_eq : s'.a = s.a
  x_eq : s'.x = s.x
  y_eq : s'.y = s.y
  pc_eq : s'.pc = s.pc
  mem_eq : s'.mem = s.mem
  phase_eq : s'.phase = s.phase

theorem SameInputs.refl (s : State) : SameInputs s s := ⟨rfl, rfl, rfl, rfl, rfl, rfl⟩

theorem SameInputs.fetchByte_eq {s s' : State} (h : SameInputs s s') (cfg : Config) (k : Nat) :
    fetchByte cfg s' k = fetchByte cfg s k := by
  simp only [fetchByte, h.pc_eq, h.mem_eq]

theorem SameInputs.fetchDecode_eq {s s' : State} (h : SameInputs s s') : fetchDecode s' = fetchDecode s := by
  simp only [fetchDecode, fetchWindow, h.fetchByte_eq]

theorem SameInputs.resolve_eq {s s' : State} (h : SameInputs s s') (cfg : Config) (mode : Mode) (o1 o2 : Byte) :
    resolve cfg mode o1 o2 s' = resolve cfg mode o1 o2 s := by
  have operand : ∀ k v, operandByte cfg s' k v = operandByte cfg s k v := fun k v => by
    unfold operandByte operandAddr
    rw [h.pc_eq]
  have read : ∀ a, memRead s' a = memRead s a := fun a => by simp only [memRead, h.mem_eq]
  cases mode <;> simp only [resolve, resolveAcc, resolveImm, resolveZp, resolveZpIndexed, resolveAbs, resolveAbsIndexed,
    resolveRel, resolveIzx, resolveIzy, resolveInd, loadOperand, readPointer, operandAddr, operand, read, h.a_eq, h.x_eq,
    h.y_eq, h.pc_eq]

/-! Everything a step can do -/

/-- A record of a fault that is the instruction's own (R230): the opcode, or an address outside memory, with its PC. -/
def PreciseRecord (s : State) (r : FaultRecord) : Prop :=
  (∃ opcode, r = .unsupportedOpcode opcode s.pc) ∨ ∃ addr, r = .addressOutOfRange addr s.pc ∧ ¬ InRange addr

/-- A core that is not Halted takes a precise fault or completes the decoded instruction, and so does every core with the
same inputs. -/
theorem step_answers {s : State} (hp : s.phase ≠ .halted) :
    (∃ r, PreciseRecord s r ∧ ∀ s', SameInputs s s' → step s' = .next (s'.takeFault r)) ∨
    (∃ i rest p, fetchDecode s = .ok (i, rest) ∧ ∀ s', SameInputs s s' → step s' = .next (completed i p s')) := by
  have hp' : ∀ s', SameInputs s s' → s'.phase ≠ .halted := fun s' hs => hs.phase_eq ▸ hp
  cases hd : fetchDecode s with
  | error e =>
    refine .inl ⟨_, .inl ⟨fetchByte params s 0, rfl⟩, fun s' hs => ?_⟩
    rw [step_of_undecoded (hp' s' hs) (hs.fetchDecode_eq.trans hd), hs.fetchByte_eq, hs.pc_eq]
  | ok r =>
    obtain ⟨i, rest⟩ := r
    have hstep : ∀ s', SameInputs s s' → step s' = exec i s' := fun s' hs =>
      step_of_fetchDecode (hp' s' hs) (hs.fetchDecode_eq.trans hd)
    cases hr : resolve params i.mode i.o1 i.o2 s with
    | error a =>
      refine .inl ⟨_, .inr ⟨a, rfl, (resolve_error_mem hr).2⟩, fun s' hs => ?_⟩
      rw [hstep s' hs, exec_of_error ((hs.resolve_eq _ _ _ _).trans hr), hs.pc_eq]
    | ok p =>
      refine .inr ⟨i, rest, p, rfl, fun s' hs => ?_⟩
      rw [hstep s' hs, exec_of_ok ((hs.resolve_eq _ _ _ _).trans hr)]

theorem step_of_halted {s : State} (hp : s.phase = .halted) : step s = .fault .halted := by
  rw [step, hp]

theorem phase_ne_halted_of_step {s t : State} (h : step s = .next t) : s.phase ≠ .halted := by
  intro hp
  cases (step_of_halted hp).symm.trans h

/-- A step that is answered took a precise fault, or completed the decoded instruction; and from a state with the same inputs
the step does the same. -/
theorem step_next_cases {s t : State} (h : step s = .next t) :
    (∃ r, PreciseRecord s r ∧ t = s.takeFault r ∧ ∀ s', SameInputs s s' → step s' = .next (s'.takeFault r)) ∨
    (∃ i rest p, fetchDecode s = .ok (i, rest) ∧ t = completed i p s ∧
      ∀ s', SameInputs s s' → step s' = .next (completed i p s')) := by
  obtain ⟨r, hr, hstep⟩ | ⟨i, rest, p, hd, hstep⟩ := step_answers (phase_ne_halted_of_step h)
  · exact .inl ⟨r, hr, Host.Outcome.next.inj (h.symm.trans (hstep s (.refl s))), hstep⟩
  · exact .inr ⟨i, rest, p, hd, Host.Outcome.next.inj (h.symm.trans (hstep s (.refl s))), hstep⟩

theorem step_sameInertFields {s t : State} (h : step s = .next t) : SameInertFields s t := by
  obtain ⟨r, -, rfl, -⟩ | ⟨i, rest, p, -, rfl, -⟩ := step_next_cases h
  · exact .takeFault s r
  · exact completed_sameInertFields i p s

end Sys2Proof.Machine

namespace Sys2Proof.Certificates

open Sys2Proof.Machine

/-- Settles O41: a fault is taken at once, with a precise record, and a step that completes ends in Running. -/
theorem faultsArePrecise : Obligations.FaultsArePrecise := by
  unfold Obligations.FaultsArePrecise
  intro s t h hhalted
  obtain ⟨r, hr, rfl, -⟩ | ⟨i, rest, p, -, rfl, -⟩ := step_next_cases h
  · refine ⟨rfl, ?_⟩
    obtain ⟨opcode, rfl⟩ | ⟨addr, rfl, hbad⟩ := hr
    · exact .inl ⟨opcode, rfl⟩
    · exact .inr ⟨addr, rfl, hbad⟩
  · cases hhalted

/-- Settles O42: the window is read from memory, and a decoded instruction is run. -/
theorem stepRunsTheDecodedInstruction : Obligations.StepRunsTheDecodedInstruction := by
  unfold Obligations.StepRunsTheDecodedInstruction
  intro s hp
  refine ⟨fun k => fetchWindow_getElem?, fun i rest hd _ => step_of_fetchDecode hp hd, fun i _ hfit hbytes => ?_⟩
  obtain ⟨rest, hd⟩ := fetchDecode_of_bytes hfit hbytes
  exact step_of_fetchDecode hp hd

/-- Settles O43: the bytes placed at PC are read back there. -/
theorem placedInstructionRunsNext : Obligations.PlacedInstructionRunsNext := by
  unfold Obligations.PlacedInstructionRunsNext
  intro i s hwf hp hfit
  have hlen := encode_length i
  have whole : (encode i).take (65536 - s.pc.toNat) = encode i := List.take_of_length_le (by omega)
  have hmem : (placeAtPc s (encode i)).mem = s.mem.writeBytes s.pc.toNat (encode i) := by
    rw [placeAtPc, State.setMem_mem, whole]
  obtain ⟨rest, hd⟩ := fetchDecode_of_bytes (s := placeAtPc s (encode i)) hfit fun k hk => by
    rw [hmem]
    exact Memory.read_writeBytes_add hwf (by omega) (by omega)
  exact step_of_fetchDecode hp hd

/-- Settles O45: in Halted there is no step; otherwise a fault is taken or an instruction completes. -/
theorem stepMovesThePhase : Obligations.StepMovesThePhase := by
  unfold Obligations.StepMovesThePhase
  intro s
  by_cases hp : s.phase = .halted
  · exact .inl ⟨hp, step_of_halted hp⟩
  · refine .inr ⟨hp, ?_⟩
    obtain ⟨r, -, hstep⟩ | ⟨i, rest, p, -, hstep⟩ := step_answers hp
    · exact ⟨_, hstep s (.refl s), .inr ⟨rfl, by simp⟩⟩
    · exact ⟨_, hstep s (.refl s), .inl ⟨rfl, completed_fault i p s⟩⟩

end Sys2Proof.Certificates
end

section
/-! PROOFS. The step of the 29 meanings is the table-driven step (spec/41_core_step.md R132; spec/30_encoding.md R94), and
what it returns (spec/00_scope.md R14; spec/41_core_step.md R138). -/

namespace Sys2Proof.Machine

/-! The rows of this hardware's table -/

/-- A row's length and cycles are those of its mode and identifier (R80, R276), and it is legal (R85). -/
theorem opcodeTable_row : ∀ r ∈ opcodeTable,
    r.2.length = 1 + r.2.mode.operandCount ∧ r.2.cycles = cyclesOf r.2.op r.2.mode ∧ r.2.wf = true := by decide

/-- The cycles of a row are 2 to 7. -/
theorem opcodeTable_cycles_bounds : ∀ r ∈ opcodeTable, 2 ≤ r.2.cycles ∧ r.2.cycles ≤ 7 := by decide

/-- Whether a pair of an identifier and a mode assembles does not depend on the values of the operand bytes. -/
theorem assemble_isSome_eq (op : Op) (mode : Mode) (o1 o2 : Byte) :
    (assemble op mode [o1, o2]).isSome = (assemble op mode [0, 0]).isSome := by
  cases op <;> cases mode <;> rfl

/-- Two operand bytes are enough for every row. -/
theorem assemble_row (o1 o2 : Byte) : ∀ r ∈ opcodeTable, (assemble r.2.op r.2.mode [o1, o2]).isSome = true := by
  simp only [assemble_isSome_eq _ _ o1 o2]
  decide

/-- A byte that has a row decodes to an instruction of that row. -/
theorem decode_of_lookupEntry {b : Byte} {e : Entry} (o1 o2 : Byte) (h : lookupEntry opcodeTable b = some e) :
    ∃ i rest, decode [b, o1, o2] = .ok (i, rest) ∧ [o1, o2] = i.operandBytes ++ rest ∧
      e = ⟨i.op, i.mode, i.length, cyclesOf i.op i.mode⟩ := by
  have hmem := mem_of_lookupEntry h
  obtain ⟨⟨i, rest⟩, hassemble⟩ := Option.isSome_iff_exists.1 (assemble_row o1 o2 _ hmem)
  obtain ⟨hop, hmode, hbytes⟩ := assemble_cases hassemble
  obtain ⟨hlength, hcycles, -⟩ := opcodeTable_row _ hmem
  refine ⟨i, rest, decode_of_assemble h hassemble, hbytes, ?_⟩
  obtain ⟨op, mode, length, cycles⟩ := e
  simp only at hop hmode hlength hcycles
  rw [Instr.length, hop, hmode, hlength, hcycles]

/-- A mode reads no more operand bytes than its instruction has: those after them (0x00 in `Instr.o1` and `Instr.o2`) do not
matter. -/
theorem resolve_of_operandBytes {i : Instr} {o1 o2 : Byte} {rest : List Byte} (h : [o1, o2] = i.operandBytes ++ rest)
    (cfg : Config) (s : State) : resolve cfg i.mode o1 o2 s = resolve cfg i.mode i.o1 i.o2 s := by
  cases i <;> cases h <;> rfl

/-- An entry's run depends on the operand bytes through its mode alone. -/
theorem executeEntry_congr {cfg : Config} {e : Entry} {o1 o2 o1' o2' : Byte} {s : State}
    (h : resolve cfg e.mode o1 o2 s = resolve cfg e.mode o1' o2' s) :
    executeEntry cfg e o1 o2 s = executeEntry cfg e o1' o2' s := by
  simp only [executeEntry, readForm, aslMemoryForm, h]

theorem step_eq_stepWith (s : State) : step s = stepWith params s := by
  by_cases hp : s.phase = .halted
  · rw [step_of_halted hp, stepWith_of_halted hp]
  cases he : lookupEntry params.opcodeTable (fetchByte params s 0) with
  | none => rw [stepWith_of_none hp he, step_of_undecoded hp (decode_of_lookupEntry_eq_none _ he)]
  | some e =>
    obtain ⟨i, rest, hd, hbytes, rfl⟩ := decode_of_lookupEntry (fetchByte params s 1) (fetchByte params s 2) he
    rw [stepWith_of_some hp he, step_of_fetchDecode hp hd, exec_eq_executeEntry]
    exact (executeEntry_congr (resolve_of_operandBytes hbytes params s)).symm

/-! The output of a step -/

theorem stepOutputWith_of_none {cfg : Config} {s : State} (hp : s.phase ≠ .halted)
    (h : lookupEntry cfg.opcodeTable (fetchByte cfg s 0) = none) :
    stepOutputWith cfg s = .fault (.unsupportedOpcode (fetchByte cfg s 0) s.pc) := by
  cases hphase : s.phase with
  | halted => exact absurd hphase hp
  | reset | running => simp [stepOutputWith, hphase, h]

theorem stepOutputWith_of_error {cfg : Config} {s : State} {e : Entry} {a : Int} (hp : s.phase ≠ .halted)
    (h : lookupEntry cfg.opcodeTable (fetchByte cfg s 0) = some e)
    (hr : resolve cfg e.mode (fetchByte cfg s 1) (fetchByte cfg s 2) s = .error a) :
    stepOutputWith cfg s = .fault (.addressOutOfRange a s.pc) := by
  cases hphase : s.phase with
  | halted => exact absurd hphase hp
  | reset | running => simp [stepOutputWith, hphase, h, hr]

theorem stepOutputWith_of_ok {cfg : Config} {s : State} {e : Entry} {p : Operand} (hp : s.phase ≠ .halted)
    (h : lookupEntry cfg.opcodeTable (fetchByte cfg s 0) = some e)
    (hr : resolve cfg e.mode (fetchByte cfg s 1) (fetchByte cfg s 2) s = .ok p) :
    stepOutputWith cfg s = .ok e.cycles := by
  cases hphase : s.phase with
  | halted => exact absurd hphase hp
  | reset | running => simp [stepOutputWith, hphase, h, hr]

/-- The output and the step side by side: nothing and no step; a record and its fault; cycles of the table and a step that
adds them. -/
theorem stepOutput_cases (s : State) :
    (stepOutput s = .none ∧ step s = .fault .halted) ∨
    (∃ r, stepOutput s = .fault r ∧ step s = .next (s.takeFault r)) ∨
    (∃ c t, stepOutput s = .ok c ∧ 2 ≤ c ∧ c ≤ 7 ∧ step s = .next t ∧ t.phase = .running ∧ t.fault = s.fault ∧
      t.cyc = (s.cyc + c) % 2 ^ 64) := by
  by_cases hp : s.phase = .halted
  · exact .inl ⟨by rw [stepOutput, stepOutputWith, hp], step_of_halted hp⟩
  rw [step_eq_stepWith]
  cases he : lookupEntry params.opcodeTable (fetchByte params s 0) with
  | none => exact .inr (.inl ⟨_, stepOutputWith_of_none hp he, stepWith_of_none hp he⟩)
  | some e =>
    have hmem := mem_of_lookupEntry he
    rw [stepWith_of_some hp he]
    cases hr : resolve params e.mode (fetchByte params s 1) (fetchByte params s 2) s with
    | error a => exact .inr (.inl ⟨_, stepOutputWith_of_error hp he hr, executeEntry_of_error hr⟩)
    | ok p =>
      obtain ⟨hlow, hhigh⟩ := opcodeTable_cycles_bounds _ hmem
      obtain ⟨-, -, hwf⟩ := opcodeTable_row _ hmem
      have hframe := effectOf_frame params e.op e.mode p s
      refine .inr (.inr ⟨_, _, stepOutputWith_of_ok hp he hr, hlow, hhigh,
        executeEntry_of_ok (Entry.mode_ne_imp_of_wf hwf) hr, rfl, hframe.fault_eq, ?_⟩)
      rw [State.complete_cyc, hframe.cyc_eq, params_cycWidth]

end Sys2Proof.Machine

namespace Sys2Proof.Certificates

open Sys2Proof.Machine

/-- Settles O44: the entry at PC and the instruction decoded there are the same row, and a mode ignores the operand bytes it
does not read. -/
theorem stepIsTheTableDrivenStep : Obligations.StepIsTheTableDrivenStep := by
  unfold Obligations.StepIsTheTableDrivenStep
  exact step_eq_stepWith

/-- Settles O11: the step is the table-driven one, which keeps the invariant under every legal table. -/
theorem stepKeepsTheInvariant : Obligations.StepKeepsTheInvariant := by
  unfold Obligations.StepKeepsTheInvariant
  intro s t hinv hstep
  have legal : tableWf params.opcodeTable = true := by decide
  obtain ⟨t', hstep', hinv'⟩ := stepWith_answers legal (phase_ne_halted_of_step hstep) hinv
  rw [step_eq_stepWith] at hstep
  cases hstep.symm.trans hstep'
  exact hinv'

/-- Settles O39: the byte at PC is the one looked up. -/
theorem unsupportedOpcodeFaults : Obligations.UnsupportedOpcodeFaults := by
  unfold Obligations.UnsupportedOpcodeFaults
  intro s hp hnone
  rw [← fetchByte_params_zero] at hnone ⊢
  rw [step_eq_stepWith]
  exact ⟨stepWith_of_none hp hnone, stepOutputWith_of_none hp hnone⟩

/-- Settles O46: of the three pairs of an output and a step, the output names which. -/
theorem stepOutputAgreesWithTheStep : Obligations.StepOutputAgreesWithTheStep := by
  unfold Obligations.StepOutputAgreesWithTheStep
  intro s
  obtain ⟨hout, hstep⟩ | ⟨r, hout, hstep⟩ | ⟨c, t, hout, hlow, hhigh, hstep, hphase, hfault, hcyc⟩ := stepOutput_cases s
  · simp [hout, hstep]
  · refine ⟨fun c hc => ?_, fun r' hr => ?_, ?_⟩
    · cases hout.symm.trans hc
    · cases hout.symm.trans hr
      exact hstep
    · simp [hout, hstep]
  · refine ⟨fun c' hc => ?_, fun r hr => ?_, ?_⟩
    · cases hout.symm.trans hc
      exact ⟨t, hstep, hphase, hfault, hcyc, hlow, hhigh⟩
    · cases hout.symm.trans hr
    · simp [hout, hstep]

end Sys2Proof.Certificates
end

section
/-! PROOFS. What an instruction does where its addresses exist, what it leaves alone, and the fault it takes where they do not
(spec/41_core_step.md R144; spec/45_asl.md R216; spec/60_exceptions.md R232, R233; spec/20_memory.md R65). -/

namespace Sys2Proof.Machine

/-! Addresses that do not exist -/

/-- An operand byte past 0xFFFF is reported as 65536: PC is 0xFFFF, or 0xFFFE where the second byte is the one (R101). -/
theorem resolve_of_operand_past_top {mode : Mode} {o1 o2 : Byte} {s : State}
    (h : 65535 < s.pc.toNat + mode.operandCount) : resolve params mode o1 o2 s = .error 65536 := by
  have hpc := s.pc.isLt
  have past : ∀ k v, s.pc.toNat + k = 65536 → operandByte params s k v = .error 65536 := fun k v hk => by
    rw [operandByte_of_not_inRange (by rw [operandAddr_params, hk]; decide), operandAddr_params, hk]
    rfl
  have one : mode.operandCount = 1 → ∀ v, operandByte params s 1 v = .error 65536 := fun hc v => past 1 v (by omega)
  have two : mode.operandCount = 2 → ∀ v w, (∃ b, operandByte params s 1 v = .ok b) ∧
      operandByte params s 2 w = .error 65536 ∨ operandByte params s 1 v = .error 65536 := fun hc v w => by
    by_cases htop : s.pc.toNat + 1 ≤ 65535
    · exact .inl ⟨⟨v, operandByte_params v htop⟩, past 2 w (by omega)⟩
    · exact .inr (past 1 v (by omega))
  cases mode with
  | acc | imp =>
    have : s.pc.toNat + 0 ≤ 65535 := by omega
    exact absurd h (Nat.not_lt.2 this)
  | imm | zp | zpx | zpy | rel | izx | izy =>
    simp only [resolve, resolveImm, resolveZp, resolveZpIndexed, resolveRel, resolveIzx, resolveIzy, one rfl]
    rfl
  | abs | abx | aby | ind =>
    simp only [resolve, resolveAbs, resolveAbsIndexed, resolveInd]
    obtain ⟨⟨b, h1⟩, h2⟩ | h1 := two rfl o1 o2
    · rw [h1, h2]
      rfl
    · rw [h1]
      rfl

/-- An effective address outside memory is reported as it is, once the operand bytes exist (R233). -/
theorem resolve_of_bad_address {mode : Mode} {o1 o2 : Byte} {s : State} {ea : Int}
    (hpc : s.pc.toNat + mode.operandCount ≤ 65535) (hea : specAddress mode o1 o2 s = some ea) (hbad : ¬ InRange ea) :
    resolve params mode o1 o2 s = .error ea := by
  have himm : mode ≠ .imm := by
    rintro rfl
    cases hea
    exact hbad (inRange_natCast hpc)
  rw [resolve_eq_loadOperand himm hpc hea, loadOperand_of_not_inRange hbad]

/-- A mode that resolves has R118's effective address. -/
theorem ea_of_resolve {mode : Mode} {o1 o2 : Byte} {s : State} {p : Operand} {ea : Int}
    (h : resolve params mode o1 o2 s = .ok p) (hea : specAddress mode o1 o2 s = some ea) : p.ea = some ea := by
  have hpc : s.pc.toNat + mode.operandCount ≤ 65535 := by
    by_contra hpast
    cases h.symm.trans (resolve_of_operand_past_top (by omega))
  by_cases hr : InRange ea
  · have spec := resolve_eq_spec (o1 := o1) (o2 := o2) hpc fun ea' hea' => by
      rwa [Option.some.inj (hea'.symm.trans hea)]
    rw [Except.ok.inj (h.symm.trans spec)]
    exact hea
  · cases h.symm.trans (resolve_of_bad_address hpc hea hr)

/-! What an instruction leaves alone -/

theorem exec_sameInertFields {i : Instr} {s t : State} (h : exec i s = .next t) : SameInertFields s t := by
  obtain ⟨a, -, rfl⟩ | ⟨p, -, rfl⟩ := exec_next_cases h
  · exact .takeFault s _
  · exact completed_sameInertFields i p s

/-- An instruction that does not end in Halted leaves FAULT. -/
theorem exec_fault_eq {i : Instr} {s t : State} (h : exec i s = .next t) (hp : t.phase ≠ .halted) : t.fault = s.fault := by
  obtain ⟨a, -, rfl⟩ | ⟨p, -, rfl⟩ := exec_next_cases h
  · exact absurd rfl hp
  · exact completed_fault i p s

/-- An instruction other than a memory-mode ASL leaves memory. -/
theorem exec_mem_eq {i : Instr} {s t : State} (hform : i.op ≠ .asl ∨ i.mode = .acc) (h : exec i s = .next t) :
    t.mem = s.mem := by
  obtain ⟨a, -, rfl⟩ | ⟨p, -, rfl⟩ := exec_next_cases h
  · rfl
  · exact effectOf_mem_eq hform p s

theorem exec_flagC_eq {i : Instr} {s t : State} (hop : i.op = .and ∨ i.op = .lda) (h : exec i s = .next t) :
    t.flagC = s.flagC := by
  obtain ⟨a, -, rfl⟩ | ⟨p, -, rfl⟩ := exec_next_cases h
  · rfl
  · exact effectOf_flagC_eq hop params i.mode p s

theorem exec_flagV_eq {i : Instr} {s t : State} (hop : i.op ≠ .adc) (h : exec i s = .next t) : t.flagV = s.flagV := by
  obtain ⟨a, -, rfl⟩ | ⟨p, -, rfl⟩ := exec_next_cases h
  · rfl
  · exact effectOf_flagV_eq hop params i.mode p s

/-- A memory-mode ASL that completes leaves A and every cell but the one at its effective address. -/
theorem completed_asl_memory {i : Instr} {p : Operand} {ea : Int} (hop : i.op = .asl) (hacc : i.mode ≠ .acc)
    (hea : p.ea = some ea) (hr : InRange ea) (s : State) :
    (completed i p s).a = s.a ∧
    ∀ b : Nat, (b : Int) ≠ ea → (completed i p s).mem.read b = s.mem.read b := by
  obtain ⟨ha, hmem⟩ := effectOf_asl_memory (cfg := params) hacc hea s
  rw [← hop] at ha hmem
  refine ⟨ha, fun b hb => ?_⟩
  rw [completed_mem, hmem, aslTarget_params]
  obtain ⟨hlo, -⟩ := hr
  exact Memory.read_write_ne (by omega)

/-- A memory-mode ASL leaves A, and every cell but the one at the effective address its resolution computes. -/
theorem exec_asl_memory {i : Instr} {s t : State} (hop : i.op = .asl) (hacc : i.mode ≠ .acc) (h : exec i s = .next t) :
    t.a = s.a ∧
    (∀ (p : Operand) (ea : Int), resolve params i.mode i.o1 i.o2 s = .ok p → p.ea = some ea →
      ∀ b : Nat, (b : Int) ≠ ea → t.mem.read b = s.mem.read b) ∧
    (∀ a, resolve params i.mode i.o1 i.o2 s = .error a → t.mem = s.mem) := by
  obtain ⟨a, hr, rfl⟩ | ⟨⟨m, ea?⟩, hr, rfl⟩ := exec_next_cases h
  · exact ⟨rfl, fun _ _ _ _ _ _ => rfl, fun _ _ => rfl⟩
  · obtain ⟨ea, hea⟩ := exists_ea_of_resolve hr hacc (mode_ne_imp i)
    cases hea
    obtain ⟨ha, hmem⟩ := completed_asl_memory (p := ⟨m, some ea⟩) hop hacc rfl (resolve_ea_inRange hr) s
    refine ⟨ha, fun p ea' hr' hea' => ?_, fun a ha => ?_⟩
    · cases hr.symm.trans hr'
      cases hea'
      exact hmem
    · cases hr.symm.trans ha

/-- The opcode bytes of the memory-mode ASL (R86, D1). -/
theorem opcode_of_asl_memory {i : Instr} (hop : i.op = .asl) (hacc : i.mode ≠ .acc) :
    i.opcode ∈ ([0x06, 0x16, 0x0E, 0x1E] : List Byte) := by
  cases i with
  | aslAcc => exact absurd rfl hacc
  | aslZp | aslZpx | aslAbs | aslAbx => simp [Instr.opcode]
  | _ => cases hop

/-- A memory-mode ASL is not in Immediate mode. -/
theorem mode_ne_imm_of_asl {i : Instr} (hop : i.op = .asl) : i.mode ≠ .imm := by
  cases i with
  | aslAcc | aslZp | aslZpx | aslAbs | aslAbx => exact nofun
  | _ => cases hop

theorem cyclesOf_ge_two (i : Instr) : 2 ≤ cyclesOf i.op i.mode := by
  cases i <;> simp [Instr.op, Instr.mode, cyclesOf]

end Sys2Proof.Machine

namespace Sys2Proof.Certificates

open Sys2Proof.Machine

/-- Settles O15: a fault changes FAULT and the phase alone; an instruction that completes leaves the inert fields, and memory
unless it is a memory-mode ASL, whose opcode is the byte at PC. -/
theorem stepNeverChanges : Obligations.StepNeverChanges := by
  unfold Obligations.StepNeverChanges
  intro s t h
  obtain ⟨hx, hy, hsp, hi, hd, hb⟩ := step_sameInertFields h
  refine ⟨hx, hy, hsp, hi, hd, hb, fun hopcode => ?_, fun i rest hdecode hop hacc => ?_⟩
  · obtain ⟨r, -, rfl, -⟩ | ⟨i, rest, p, hdecode, rfl, -⟩ := step_next_cases h
    · rfl
    · rw [opcode_of_fetchDecode hdecode] at hopcode
      have hform : i.op ≠ .asl ∨ i.mode = .acc := by
        by_contra hmem
        obtain ⟨hop, hacc⟩ := not_or.1 hmem
        exact hopcode (opcode_of_asl_memory (not_not.1 hop) hacc)
      exact effectOf_mem_eq hform p s
  · rw [step_of_fetchDecode (phase_ne_halted_of_step h) hdecode] at h
    obtain ⟨ha, hcell, hnone⟩ := exec_asl_memory hop hacc h
    refine ⟨ha, fun ea b hea hne => ?_⟩
    cases hr : resolve params i.mode i.o1 i.o2 s with
    | error a => rw [hnone a hr]
    | ok p => exact hcell p ea hr (ea_of_resolve hr hea) b hne

/-- Settles O20: the cell stored to reads as the shifted byte, and the fetch reads it there. -/
theorem fetchSeesTheStoredByte : Obligations.FetchSeesTheStoredByte := by
  unfold Obligations.FetchSeesTheStoredByte
  intro i s t ea k hwf hop hacc hfits hea hexec hk
  obtain ⟨-, hle⟩ := hfits.2 ea hea
  cases hexec.symm.trans (exec_of_fits hfits)
  rw [fetchByte_params (by omega), hk, completed_mem, hop, (effectOf_asl_memory hacc hea s).2, aslTarget_params,
    Int.toNat_natCast, Memory.read_write_same hwf, aslResult_toNat, specOperand_eq_read (mode_ne_imm_of_asl hop) hea,
    Int.toNat_natCast]

/-- Settles O36: an instruction that fits completes, with the cycles of its row. -/
theorem completionAddsTheCyclesOfTheMode : Obligations.CompletionAddsTheCyclesOfTheMode := by
  unfold Obligations.CompletionAddsTheCyclesOfTheMode
  intro i s hfits
  exact ⟨_, exec_of_fits hfits, rfl, completed_fault _ _ _, completed_cyc _ _ _, cyclesOf_ge_two i⟩

/-- Settles O37, from what each form leaves alone. -/
theorem accumulatorFormsFrame : Obligations.AccumulatorFormsFrame := by
  unfold Obligations.AccumulatorFormsFrame
  intro i s t hform h
  obtain ⟨hx, hy, hsp, hi, hd, hb⟩ := exec_sameInertFields h
  exact ⟨hx, hy, hsp, hi, hd, hb, fun hop => exec_flagC_eq hop h, fun hop => exec_flagV_eq hop h, exec_fault_eq h,
    fun b => by rw [exec_mem_eq hform h]⟩

/-- Settles O38, from what a memory-mode ASL leaves alone. -/
theorem memoryShiftFrame : Obligations.MemoryShiftFrame := by
  unfold Obligations.MemoryShiftFrame
  intro i s t hop hacc h
  obtain ⟨hx, hy, hsp, hi, hd, hb⟩ := exec_sameInertFields h
  obtain ⟨ha, hcell, hnone⟩ := exec_asl_memory hop hacc h
  exact ⟨ha, hx, hy, hsp, hi, hd, hb, exec_flagV_eq (by simp [hop]) h, exec_fault_eq h,
    fun m ea hr => hcell _ ea hr rfl, hnone⟩

/-- Settles O40: the resolver reports the operand byte past the top, else the bad effective address. -/
theorem badAddressesFaultPrecisely : Obligations.BadAddressesFaultPrecisely := by
  unfold Obligations.BadAddressesFaultPrecisely
  intro i s
  exact ⟨fun hpast => exec_of_error (resolve_of_operand_past_top hpast),
    fun hpc ea hea hbad => exec_of_error (resolve_of_bad_address hpc hea hbad)⟩

end Sys2Proof.Certificates
end

section
/-! PROOFS. The host's events (spec/41_core_step.md R131; spec/70_reset_and_hazards.md R260 to R267): what each can do, and the
machine invariant and the power-on values along them. -/

namespace Sys2Proof.Machine

/-! What each event does -/

/-- `power_on` forgets everything (R261). -/
theorem powerOn_params (s : State) : powerOn params s = State.reset := rfl

theorem hostReset_of_no_fault {s : State} (h : s.fault = none) (cfg : Config) : hostReset cfg s = initialise cfg s := by
  rw [hostReset, h]

theorem hostReset_of_fault {s : State} (h : s.fault ≠ none) (cfg : Config) : hostReset cfg s = s := by
  obtain ⟨r, hr⟩ := Option.ne_none_iff_exists'.1 h
  rw [hostReset, hr]

theorem hostReset_eq_self_or_initialise (cfg : Config) (s : State) :
    (s.fault = none ∧ hostReset cfg s = initialise cfg s) ∨ (s.fault ≠ none ∧ hostReset cfg s = s) := by
  by_cases h : s.fault = none
  · exact .inl ⟨h, hostReset_of_no_fault h cfg⟩
  · exact .inr ⟨h, hostReset_of_fault h cfg⟩

/-- A load that is answered happened in phase Reset and replaced memory by a canonical one (R266). -/
theorem hostLoad_cases {s t : State} {a : Nat} {bytes : List Byte} (h : hostLoad s a bytes = .next t) :
    s.phase = .reset ∧ ∃ m, (s.mem.wf = true → m.wf = true) ∧ t = s.setMem m := by
  unfold hostLoad at h
  split at h
  · next hp =>
    split at h
    · next hfit =>
      exact ⟨hp, _, fun hwf => Memory.writeBytes_wf hfit hwf, (Host.Outcome.next.inj h).symm⟩
    · cases h
  · cases h

/-- A clear that is answered happened in phase Reset and emptied memory (R61). -/
theorem hostClear_cases {s t : State} (h : hostClear s = .next t) : s.phase = .reset ∧ t = s.setMem [] := by
  unfold hostClear at h
  split at h
  · next hp => exact ⟨hp, (Host.Outcome.next.inj h).symm⟩
  · cases h

/-- Everything an event can do. -/
theorem event_cases {e : Event} {s t : State} (h : event e s = .next t) :
    (e = .powerOn ∧ t = State.reset) ∨
    (e = .reset ∧ s.fault = none ∧ t = initialise params s) ∨
    (e = .reset ∧ s.fault ≠ none ∧ t = s) ∨
    (e = .step ∧ step s = .next t) ∨
    ((e ≠ .powerOn ∧ e ≠ .reset ∧ e ≠ .step) ∧ s.phase = .reset ∧ ∃ m, (s.mem.wf = true → m.wf = true) ∧ t = s.setMem m) := by
  cases e with
  | powerOn => exact .inl ⟨rfl, (Host.Outcome.next.inj h).symm⟩
  | reset =>
    obtain rfl := Host.Outcome.next.inj h
    obtain ⟨hf, ht⟩ | ⟨hf, ht⟩ := hostReset_eq_self_or_initialise params s
    · exact .inr (.inl ⟨rfl, hf, ht⟩)
    · exact .inr (.inr (.inl ⟨rfl, hf, ht⟩))
  | step => exact .inr (.inr (.inr (.inl ⟨rfl, h⟩)))
  | load a bytes => exact .inr (.inr (.inr (.inr ⟨⟨nofun, nofun, nofun⟩, hostLoad_cases h⟩)))
  | clear =>
    obtain ⟨hp, rfl⟩ := hostClear_cases h
    exact .inr (.inr (.inr (.inr ⟨⟨nofun, nofun, nofun⟩, hp, [], fun _ => rfl, rfl⟩)))

/-! The invariant -/

theorem inv_reset : Inv State.reset := ⟨rfl, by decide, by decide⟩

theorem inv_initialise {s : State} (hwf : s.mem.wf = true) (hfault : s.fault = none) : Inv (initialise params s) :=
  ⟨hwf, by simp [hfault], Nat.two_pow_pos _⟩

theorem InvUnder.setMem {cfg : Config} {s : State} {m : Memory} (h : InvUnder cfg s) (hm : m.wf = true) :
    InvUnder cfg (s.setMem m) := ⟨hm, h.halted_iff, h.cyc_lt⟩

/-! The power-on values -/

theorem atPowerOnValues_reset : AtPowerOnValues State.reset := ⟨rfl, rfl, rfl, rfl, rfl, rfl⟩

theorem atPowerOnValues_initialise (s : State) : AtPowerOnValues (initialise params s) := ⟨rfl, rfl, rfl, rfl, rfl, rfl⟩

/-- A change that leaves the inert fields leaves the power-on values. -/
theorem SameInertFields.atPowerOnValues {s t : State} (h : SameInertFields s t) (hv : AtPowerOnValues s) :
    AtPowerOnValues t :=
  ⟨h.x_eq.trans hv.x_eq, h.y_eq.trans hv.y_eq, h.sp_eq.trans hv.sp_eq, h.i_eq.trans hv.i_eq, h.d_eq.trans hv.d_eq,
    h.b_eq.trans hv.b_eq⟩

/-- The events that set the power-on values: `power_on`, and `reset()` without a fault (R261, R263). -/
def Initialises (e : Event) (s : State) : Prop := e = .powerOn ∨ (e = .reset ∧ s.fault = none)

theorem event_atPowerOnValues {e : Event} {s t : State} (he : Initialises e s) (h : event e s = .next t) :
    AtPowerOnValues t := by
  obtain rfl | ⟨rfl, hf⟩ := he
  · obtain rfl := Host.Outcome.next.inj h
    exact atPowerOnValues_reset
  · obtain rfl := Host.Outcome.next.inj h
    rw [hostReset_of_no_fault hf]
    exact atPowerOnValues_initialise s

/-- Every other event leaves the inert fields. -/
theorem event_sameInertFields {e : Event} {s t : State} (he : ¬ Initialises e s) (h : event e s = .next t) :
    SameInertFields s t := by
  obtain ⟨hpower, -⟩ | ⟨hreset, hf, -⟩ | ⟨-, -, rfl⟩ | ⟨-, hstep⟩ | ⟨-, -, m, -, rfl⟩ := event_cases h
  · exact absurd (.inl hpower) he
  · exact absurd (.inr ⟨hreset, hf⟩) he
  · exact .refl _
  · exact step_sameInertFields hstep
  · exact .setMem s m

end Sys2Proof.Machine

namespace Sys2Proof.Certificates

open Sys2Proof.Machine

/-- Settles O5: `power_on` writes every field, and the vector of the zeroed memory is 0x0000. -/
theorem powerOnGivesTheResetState : Obligations.PowerOnGivesTheResetState := by
  unfold Obligations.PowerOnGivesTheResetState
  intro s
  exact ⟨powerOn_params s, rfl, rfl, rfl, rfl, rfl, rfl, rfl, rfl, rfl, rfl, rfl, rfl, fun _ => rfl, rfl, rfl, rfl⟩

/-- Settles O6: without a fault `reset()` is `initialise`, whose PC is the word at the vector. -/
theorem resetLeavesThePowerOnRegisters : Obligations.ResetLeavesThePowerOnRegisters := by
  unfold Obligations.ResetLeavesThePowerOnRegisters
  intro s hf
  rw [hostReset_of_no_fault hf]
  exact ⟨rfl, rfl, rfl, rfl, rfl, rfl, rfl, rfl, rfl, rfl, rfl, mkWord_toNat _ _, rfl, hf, rfl, rfl⟩

/-- Settles O7: `initialise` leaves what it reads, the vector and FAULT, and what it shows depends on nothing else. -/
theorem resetIsIdempotentAndHistoryFree : Obligations.ResetIsIdempotentAndHistoryFree := by
  unfold Obligations.ResetIsIdempotentAndHistoryFree
  constructor
  · intro s
    obtain ⟨hf, hreset⟩ | ⟨-, hreset⟩ := hostReset_eq_self_or_initialise params s
    · rw [hreset, hostReset_of_no_fault (s := initialise params s) hf]
      rfl
    · rw [hreset, hreset]
  · intro s t hs ht hlo hhi
    rw [hostReset_of_no_fault hs, hostReset_of_no_fault ht]
    simp only [inspect, initialise_pc, pcAtReset_params, hlo, hhi, initialise_fault, hs, ht]
    rfl

/-- Settles O8: with a fault `reset()` changes nothing, and load and clear need phase Reset. -/
theorem haltedIsLeftOnlyByPowerOn : Obligations.HaltedIsLeftOnlyByPowerOn := by
  unfold Obligations.HaltedIsLeftOnlyByPowerOn
  intro s _ hinv hp
  refine ⟨fun e h => ?_, step_of_halted hp⟩
  obtain ⟨he, -⟩ | ⟨-, hf, -⟩ | ⟨-, -, ht⟩ | ⟨-, hstep⟩ | ⟨-, hreset, -⟩ := event_cases h
  · exact .inl he
  · exact absurd hf (hinv.halted_iff.1 hp)
  · exact .inr ht
  · exact absurd hp (phase_ne_halted_of_step hstep)
  · cases hp.symm.trans hreset

/-- Settles O10: memory is empty, the phase is Reset with no fault, CYC is zero. -/
theorem invariantHoldsAtReset : Obligations.InvariantHoldsAtReset := by
  unfold Obligations.InvariantHoldsAtReset
  exact inv_reset

/-- Settles O12: each event other than a step initialises the core, leaves it, or replaces memory by a canonical one. -/
theorem hostEventsKeepTheInvariant : Obligations.HostEventsKeepTheInvariant := by
  unfold Obligations.HostEventsKeepTheInvariant
  intro e s t hstep hinv h
  have start : e ≠ .powerOn → Inv s := hinv.resolve_right
  obtain ⟨-, rfl⟩ | ⟨rfl, hf, rfl⟩ | ⟨rfl, -, rfl⟩ | ⟨he, -⟩ | ⟨⟨hne, -⟩, -, m, hm, rfl⟩ := event_cases h
  · exact inv_reset
  · exact inv_initialise (start nofun).mem_wf hf
  · exact start nofun
  · exact absurd he hstep
  · exact (start hne).setMem (hm (start hne).mem_wf)

/-- Settles O48: a step keeps the invariant by O11 and every other event by O12; the inert fields are left, or all set to
their power-on values. -/
theorem everyEventKeepsThePowerOnValues : Obligations.EveryEventKeepsThePowerOnValues := by
  unfold Obligations.EveryEventKeepsThePowerOnValues
  refine ⟨⟨inv_reset, atPowerOnValues_reset⟩, fun e s t hinv hv h => ⟨?_, ?_⟩⟩
  · by_cases he : e = .step
    · subst he
      exact stepKeepsTheInvariant s t hinv h
    · exact hostEventsKeepTheInvariant e s t he (.inl hinv) h
  · by_cases he : Initialises e s
    · exact event_atPowerOnValues he h
    · exact (event_sameInertFields he h).atPowerOnValues hv

/-- Settles O14, by induction on how the state is reached, O48 being the base and the step. -/
theorem reachableStatesHaveThePowerOnValues : Obligations.ReachableStatesHaveThePowerOnValues := by
  unfold Obligations.ReachableStatesHaveThePowerOnValues
  obtain ⟨start, kept⟩ := everyEventKeepsThePowerOnValues
  intro s hs
  induction hs with
  | powerOn => exact start
  | event e _ h ih => exact kept e _ _ ih.1 ih.2 h

/-- Settles O35: an instruction that fits completes and one that faults leaves PC; a load and a clear write memory alone. -/
theorem pcAdvancesByTheLengthModulo65536 : Obligations.PcAdvancesByTheLengthModulo65536 := by
  unfold Obligations.PcAdvancesByTheLengthModulo65536
  refine ⟨fun i s hfits => ⟨_, exec_of_fits hfits, completed_pc_toNat _ _ _, length_bounds i⟩, fun s t h hp => ?_,
    fun s t e hstep hpower hreset h => ?_⟩
  · rw [(faultsArePrecise s t h hp).1]
  · obtain ⟨he, -⟩ | ⟨he, -⟩ | ⟨he, -⟩ | ⟨he, -⟩ | ⟨-, -, m, -, rfl⟩ := event_cases h
    · exact absurd he hpower
    · exact absurd he hreset
    · exact absurd he hreset
    · exact absurd he hstep
    · rfl

end Sys2Proof.Certificates
end

section
/-! PROOFS. What no instruction reads (spec/10_state.md R24, R30 and section 4): an effect from a state with other values of
such fields is the same effect with those values. -/

namespace Sys2Proof.Machine

/-- SP, I, D and B pass unread through every instruction. -/
theorem completed_inert_comm (i : Instr) (p : Operand) (s : State) (sp : Byte) (fi fd fb : Bool) :
    completed i p { s with sp := sp, flagI := fi, flagD := fd, flagB := fb } =
      { completed i p s with sp := sp, flagI := fi, flagD := fd, flagB := fb } := by
  unfold completed
  cases i.op with
  | adc | and | lda => rfl
  | asl =>
    obtain ⟨shiftA, store, hasl⟩ := effectOf_asl_eq params i.mode p
    rw [hasl, hasl]
    rfl

/-- Z and N are overwritten unread by every instruction, V by ADC; the others leave V. -/
theorem completed_zvn (i : Instr) (p : Operand) (s : State) (z v n : Bool) :
    completed i p { s with flagZ := z, flagV := v, flagN := n } =
      { completed i p s with flagV := if i.op = .adc then (completed i p s).flagV else v } := by
  unfold completed
  cases i.op with
  | adc | and | lda => rfl
  | asl =>
    obtain ⟨shiftA, store, hasl⟩ := effectOf_asl_eq params i.mode p
    rw [hasl, hasl]
    rfl

/-- C is overwritten unread by ASL; AND and LDA leave it. -/
theorem completed_c {i : Instr} (hop : i.op ≠ .adc) (p : Operand) (s : State) (c : Bool) :
    completed i p { s with flagC := c } =
      { completed i p s with flagC := if i.op = .asl then (completed i p s).flagC else c } := by
  unfold completed
  cases h : i.op with
  | adc => exact absurd h hop
  | and | lda => rfl
  | asl =>
    obtain ⟨shiftA, store, hasl⟩ := effectOf_asl_eq params i.mode p
    rw [hasl, hasl]
    rfl

end Sys2Proof.Machine

namespace Sys2Proof.Certificates

open Sys2Proof.Machine

/-- Settles O16: a step leaves the four and carries other values of them through; `power_on` and `reset()` set them. -/
theorem stackPointerAndIDBFlagsAreInert : Obligations.StackPointerAndIDBFlagsAreInert := by
  unfold Obligations.StackPointerAndIDBFlagsAreInert
  refine ⟨fun s t sp i d b h => ?_, fun s t e he h => ?_, fun s t e hpower hreset h => ?_⟩
  · obtain ⟨-, -, hsp, hi, hd, hb⟩ := step_sameInertFields h
    refine ⟨hsp, hi, hd, hb, ?_⟩
    have alike : SameInputs s { s with sp := sp, flagI := i, flagD := d, flagB := b } := ⟨rfl, rfl, rfl, rfl, rfl, rfl⟩
    obtain ⟨r, -, rfl, hstep⟩ | ⟨j, rest, p, -, rfl, hstep⟩ := step_next_cases h
    · exact hstep _ alike
    · rw [hstep _ alike, completed_inert_comm]
  · have hv := event_atPowerOnValues he h
    exact ⟨hv.sp_eq, hv.i_eq, hv.d_eq, hv.b_eq⟩
  · have hsame := event_sameInertFields (fun he => he.elim hpower fun he => hreset he.1) h
    exact ⟨hsame.sp_eq, hsame.i_eq, hsame.d_eq, hsame.b_eq⟩

/-- Settles O17: a fault leaves the flags, and an instruction that completes overwrites them unread or leaves them. -/
theorem flagsOtherThanAdcsCarryAreNotRead : Obligations.FlagsOtherThanAdcsCarryAreNotRead := by
  unfold Obligations.FlagsOtherThanAdcsCarryAreNotRead
  intro s t c z v n h
  have alikeZVN : SameInputs s { s with flagZ := z, flagV := v, flagN := n } := ⟨rfl, rfl, rfl, rfl, rfl, rfl⟩
  have alikeC : SameInputs s { s with flagC := c } := ⟨rfl, rfl, rfl, rfl, rfl, rfl⟩
  obtain ⟨r, -, rfl, hstep⟩ | ⟨i, rest, p, hd, rfl, hstep⟩ := step_next_cases h
  · exact ⟨⟨_, hstep _ alikeZVN, rfl, nofun, fun _ => ⟨rfl, rfl, rfl⟩⟩,
      fun _ => ⟨_, hstep _ alikeC, rfl, nofun, fun _ => rfl⟩⟩
  · have decoded : ∀ j rest', fetchDecode s = .ok (j, rest') → j = i := fun j rest' hj => by
      cases hd.symm.trans hj
      rfl
    have stepZVN := (hstep _ alikeZVN).trans (congrArg Host.Outcome.next (completed_zvn i p s z v n))
    refine ⟨⟨_, stepZVN, rfl, fun _ => ⟨rfl, rfl, fun j rest' hj => ?_⟩, nofun⟩, fun hop => ?_⟩
    · rw [decoded j rest' hj]
    · have stepC := (hstep _ alikeC).trans (congrArg Host.Outcome.next (completed_c (hop i rest hd) p s c))
      refine ⟨_, stepC, rfl, fun _ j rest' hj => ?_, nofun⟩
      rw [decoded j rest' hj]

end Sys2Proof.Certificates
end

section
/-! PROOFS. The laws of ADC (spec/42_adc.md section 1): the carry is the ninth bit of the sum, V is signed overflow. -/

namespace Sys2Proof.Machine

/-- The mask 0x80 keeps the top bit. -/
theorem and_0x80_ne_zero_iff : ∀ b : Byte, b &&& 0x80 ≠ 0 ↔ b.msb = true := by decide

/-- V says that the operands have one sign and the result the other (R150). -/
theorem adcOverflow_iff_msb (a m : Byte) (c : Bool) :
    adcOverflow a m c = true ↔ a.msb = m.msb ∧ (adcResult a m c).msb ≠ a.msb := by
  have signs : ∀ x y r : Bool, (!(x ^^ y) && (x ^^ r)) = true ↔ x = y ∧ r ≠ x := by decide
  rw [adcOverflow_iff, and_0x80_ne_zero_iff]
  simp only [BitVec.msb_and, BitVec.msb_not, BitVec.msb_xor]
  exact signs _ _ _

/-- The carry is the ninth bit of the sum. -/
theorem adcCarry_adcResult_sum (a m : Byte) (c : Bool) :
    256 * (adcCarry a m c).toNat + (adcResult a m c).toNat = a.toNat + m.toNat + c.toNat := by
  have ha := a.isLt
  have hm := m.isLt
  have hc : c.toNat ≤ 1 := Bool.toNat_le c
  rw [adcResult_toNat]
  cases hcarry : adcCarry a m c with
  | true =>
    have high := (adcCarry_iff a m c).1 hcarry
    rw [Bool.toNat_true]
    omega
  | false =>
    have low := mt (adcCarry_iff a m c).2 (Bool.eq_false_iff.1 hcarry)
    rw [Bool.toNat_false]
    omega

/-- V is signed overflow. -/
theorem adcOverflow_iff_signed (a m : Byte) (c : Bool) :
    adcOverflow a m c = true ↔
      (sext8 a + sext8 m + (c.toNat : Int) < -128 ∨ 127 < sext8 a + sext8 m + (c.toNat : Int)) := by
  have ha := a.isLt
  have hm := m.isLt
  have hc : c.toNat ≤ 1 := Bool.toNat_le c
  simp only [adcOverflow_iff_msb, BitVec.msb_eq_decide, ne_eq, decide_eq_decide, adcResult_toNat, sext8]
  split <;> split <;> omega

/-- V in the other form the spec gives: the result differs in sign from both operands. -/
theorem adcOverflow_iff_xor (a m : Byte) (c : Bool) :
    adcOverflow a m c = true ↔ (a ^^^ adcResult a m c) &&& (m ^^^ adcResult a m c) &&& (0x80 : Byte) ≠ 0 := by
  have signs : ∀ x y r : Bool, x = y ∧ r ≠ x ↔ ((x ^^ r) && (y ^^ r)) = true := by decide
  rw [adcOverflow_iff_msb, and_0x80_ne_zero_iff]
  simp only [BitVec.msb_and, BitVec.msb_xor]
  exact signs _ _ _

end Sys2Proof.Machine

namespace Sys2Proof.Certificates

open Sys2Proof.Machine

/-- Settles O32: the ninth bit of the sum is the carry, and V compares the three signs. -/
theorem adcArithmeticLaws : Obligations.AdcArithmeticLaws := by
  unfold Obligations.AdcArithmeticLaws
  intro a m c
  exact ⟨adcCarry_adcResult_sum a m c, adcOverflow_iff_signed a m c, adcOverflow_iff_xor a m c⟩

end Sys2Proof.Certificates
end
